-- ==== Sys2Proof/Word.lean ====
section
/-! DEFINITION. The two word types of the core: 8-bit bytes and 16-bit addresses (rule R6). -/

namespace Sys2Proof

/-- A register value, memory cell, opcode or operand byte: 8 bits, unsigned (rules R6, R9). -/
abbrev Byte := BitVec 8

/-- A program counter, stack pointer or core address: 16 bits, unsigned (rules R6, R9). -/
abbrev Word := BitVec 16

end Sys2Proof
end

