-- ==== Sys2Proof/Syntax.lean ====
section
/-! DEFINITION. The instructions, the handlers the decoder selects, the two formats, opcode maps, and what decoding answers. -/

namespace Sys2Proof

/-- The tagged handlers of rule R57 ("enum-of-operations"): what the decoder selects from an opcode byte alone. -/
inductive Handler where
  | lda | ldx | ldy | inx | iny | tsx | clc | cld | cli | clv
  deriving DecidableEq, Repr

/-- Every handler, once: the ten instructions of rule R2. -/
def Handler.all : List Handler := [.lda, .ldx, .ldy, .inx, .iny, .tsx, .clc, .cld, .cli, .clv]

/-- The two instruction formats of rule R52: `imp` has no operand byte, `imm` has one. -/
inductive Format where
  | imp | imm
  deriving DecidableEq, Repr

/-- The instructions, one constructor per row of spec/opcode_table.json (rule R2).
A load carries its raw operand byte (rule R54). -/
inductive Instr where
  | ldaImm (imm : Byte)   -- R81
  | ldxImm (imm : Byte)   -- R82
  | ldyImm (imm : Byte)   -- R83
  | inx                   -- R84
  | iny                   -- R85
  | tsx                   -- R86
  | clc                   -- R87
  | cld                   -- R88
  | cli                   -- R89
  | clv                   -- R90
  deriving DecidableEq, Repr

/-- `OPCODE_MAP` of rule R7: opcode bytes and the handlers they select. Every row's mask is 0xFF (rule R56). -/
abbrev OpcodeMap := List (Byte × Handler)

/-- What decoding a list of bytes answers: an instruction and the bytes after it, or a rejection by name. -/
inductive Decoded where
  /-- An instruction, and the bytes that follow it. -/
  | instr (i : Instr) (rest : List Byte)
  /-- The opcode byte is mapped to no handler (rule R58). -/
  | unmapped (op : Byte)
  /-- The opcode byte has format `imm` and no byte follows it (memory always supplies one, rule R31). -/
  | noOperand (op : Byte)
  /-- There is no byte at all (memory always supplies one, rule R31). -/
  | noBytes
  deriving DecidableEq, Repr

end Sys2Proof
end

