-- ==== Sys2Proof/Config.lean ====
section
/-! DEFINITION. The parameters of rule R7, and the free values of a core that was never reset (rule R27). -/

namespace Sys2Proof

/-- The configuration of rule R7. Claims quantify over it; the spec's default values are in Machine/Params.lean. -/
structure Config where
  /-- `RESET_VECTOR`: the entry address itself, no pointer is read from it (rules R7, R45). -/
  resetVector : Word
  /-- `SP_RESET`: what reset puts into SP (rules R7, R21). -/
  spReset : Word
  /-- `OPCODE_MAP` (rules R7, R56). -/
  opcodeMap : OpcodeMap
  deriving DecidableEq, Repr

/-- FREE VALUE (log 7): the 16-bit fields of a core that was never reset; rule R27 gives them no value.
The argument numbers the field. -/
opaque Config.undefinedWord : Nat → Word

/-- FREE VALUE (log 7): the 8-bit fields of a core that was never reset. -/
opaque Config.undefinedByte : Nat → Byte

/-- FREE VALUE (log 7): the flags of a core that was never reset. -/
opaque Config.undefinedFlag : Nat → Bool

end Sys2Proof
end

