-- ==== Sys2Proof/WellFormed.lean ====
section
/-! DEFINITION. Which instructions and which opcode maps are well formed. -/

namespace Sys2Proof

/-- Every instruction is well formed: the operand's type holds exactly the 256 values of rule R54, no
value of it changes the decoding (rule R55), and the implied instructions have no operand.
One arm per constructor, so that a new instruction cannot slip past. -/
def Instr.wellFormed : Instr → Bool
  | .ldaImm _ => true
  | .ldxImm _ => true
  | .ldyImm _ => true
  | .inx => true
  | .iny => true
  | .tsx => true
  | .clc => true
  | .cld => true
  | .cli => true
  | .clv => true

/-- No opcode byte has two rows, so decoding is a function of the byte (rule R57). -/
def OpcodeMap.opcodesDistinct (m : OpcodeMap) : Bool := decide (m.map Prod.fst).Nodup

/-- No handler has two rows: a mnemonic has one opcode byte, as in the table of rule R56. -/
def OpcodeMap.handlersDistinct (m : OpcodeMap) : Bool := decide (m.map Prod.snd).Nodup

/-- Every handler has a row: the map is "total over the supported opcode set" (rule R57). -/
def OpcodeMap.covers (m : OpcodeMap) : Bool := Handler.all.all fun h => (m.map Prod.snd).contains h

/-- 0xFF has no row: the one byte DOC itself fixes, as unmapped (rule R58). -/
def OpcodeMap.leavesFF (m : OpcodeMap) : Bool := !(m.map Prod.fst).contains 0xFF

/-- A well-formed `OPCODE_MAP`. -/
def OpcodeMap.wellFormed (m : OpcodeMap) : Bool :=
  m.opcodesDistinct && m.handlersDistinct && m.covers && m.leavesFF

end Sys2Proof
end

