-- ==== Sys2Proof/Decode.lean ====
section
/-! DEFINITION. The opcode map of rule R56, the decoder (total on any bytes, rejecting by name), and after it the encoder. -/

namespace Sys2Proof

/-- The format of each instruction (rule R53). -/
def Handler.format : Handler → Format
  | .lda => .imm
  | .ldx => .imm
  | .ldy => .imm
  | .inx => .imp
  | .iny => .imp
  | .tsx => .imp
  | .clc => .imp
  | .cld => .imp
  | .cli => .imp
  | .clv => .imp

/-- The length in bytes of each format, which is also its cost in budget units (rules R52, R53). -/
def Format.length : Format → Nat
  | .imp => 1
  | .imm => 2

/-- The handler that runs an instruction. -/
def Instr.handler : Instr → Handler
  | .ldaImm _ => .lda
  | .ldxImm _ => .ldx
  | .ldyImm _ => .ldy
  | .inx => .inx
  | .iny => .iny
  | .tsx => .tsx
  | .clc => .clc
  | .cld => .cld
  | .cli => .cli
  | .clv => .clv

/-- The operand bytes of an instruction (rules R52, R54). -/
def Instr.operandBytes : Instr → List Byte
  | .ldaImm v => [v]
  | .ldxImm v => [v]
  | .ldyImm v => [v]
  | .inx => []
  | .iny => []
  | .tsx => []
  | .clc => []
  | .cld => []
  | .cli => []
  | .clv => []

/-- An instruction's length in bytes, and its cost in budget units (rule R53). -/
def Instr.length (i : Instr) : Nat := i.handler.format.length

/-- The instruction a handler and the byte after the opcode make: the byte is the raw operand of an `imm`
handler (rule R54) and no part of an `imp` instruction (rule R52). -/
def Handler.instr : Handler → Byte → Instr
  | .lda, v => .ldaImm v
  | .ldx, v => .ldxImm v
  | .ldy, v => .ldyImm v
  | .inx, _ => .inx
  | .iny, _ => .iny
  | .tsx, _ => .tsx
  | .clc, _ => .clc
  | .cld, _ => .cld
  | .cli, _ => .cli
  | .clv, _ => .clv

/-- `OPCODE_MAP` of rule R56. PRESUMED, unsafe (log 1): the byte values are decision D1 of the spec. -/
def defaultOpcodeMap : OpcodeMap :=
  [(0xA9, .lda), (0xA2, .ldx), (0xA0, .ldy), (0xE8, .inx), (0xC8, .iny),
   (0xBA, .tsx), (0x18, .clc), (0xD8, .cld), (0x58, .cli), (0xB8, .clv)]

/-- `decode` of rule R57: the handler of an opcode byte, or none. It looks at that byte and nothing else. -/
def OpcodeMap.lookup : OpcodeMap → Byte → Option Handler
  | [], _ => none
  | row :: rows, op => if row.1 = op then some row.2 else OpcodeMap.lookup rows op

/-- The opcode byte of a handler, from the same map. -/
def OpcodeMap.opcodeOf : OpcodeMap → Handler → Option Byte
  | [], _ => none
  | row :: rows, h => if row.2 = h then some row.1 else OpcodeMap.opcodeOf rows h

/-- Decodes the instruction that starts at the first byte (rules R52, R54, R57, R58). -/
def decode (m : OpcodeMap) : List Byte → Decoded
  | [] => .noBytes
  | op :: rest =>
    match m.lookup op with
    | none => .unmapped op
    | some h =>
      match h.format with
      | .imp => .instr (h.instr 0) rest
      | .imm =>
        match rest with
        | [] => .noOperand op
        | v :: after => .instr (h.instr v) after

/-- The bytes of an instruction: the opcode byte, then the operand byte if it has one (rule R52). -/
def encode (m : OpcodeMap) (i : Instr) : Option (List Byte) :=
  (m.opcodeOf i.handler).map fun op => op :: i.operandBytes

/-- Byte `k` of a number whose least significant byte is byte 0. -/
def byteOf (w k : Nat) : Byte := BitVec.ofNat 8 (w / 256 ^ k)

/-- The two bytes, lowest address first, that hold an instruction whose bits the opcode table numbers
`nbits - 1` down to 0: bit 0 is the least significant bit of the opcode byte, the operand byte's bits count
on from bit 8, and every bit from `nbits` on is 0. Two bytes are the longest instruction (rule R52). -/
def tableBytes (nbits w : Nat) : List Byte := [byteOf (w % 2 ^ nbits) 0, byteOf (w % 2 ^ nbits) 1]

/-- What the decoder reads from an instruction given as the opcode table numbers its bits. -/
def decodeTableWord (nbits w : Nat) : Option Instr :=
  match decode defaultOpcodeMap (tableBytes nbits w) with
  | .instr i _ => some i
  | .unmapped _ => none
  | .noOperand _ => none
  | .noBytes => none

end Sys2Proof
end

