-- ==== Sys2Proof/Machine/Params.lean ====
section
/-! DEFINITION. The spec's default values of the parameters of rule R7. -/

namespace Sys2Proof.Machine

/-- The default `RESET_VECTOR` (rule R7, decision D2; log 2). -/
def defaultResetVector : Word := 0xFFFC

/-- The default `SP_RESET` (rule R7, decision D3; log 3). -/
def defaultSpReset : Word := 0x0100

/-- The default configuration (rule R7). -/
def defaultConfig : Config :=
  { resetVector := defaultResetVector, spReset := defaultSpReset, opcodeMap := defaultOpcodeMap }

end Sys2Proof.Machine
end

