-- ==== Sys2Proof/Machine/State.lean ====
section
/-! DEFINITION. The state of the machine as plain data, the reasons a step can stop, the state after reset, and the
state of a core that was never reset. -/

namespace Sys2Proof.Machine

/-- How an `execute` call ends (rules R62, R91; decision D14): the tag is the code. `completed` is the spec's name
for normal termination; the others are the three error conditions. -/
inductive ExecOutcome where
  | completed
  | unknownOpcode (opcode : Byte) (addr : Word)
  | budgetExhausted
  | outOfRange
  deriving DecidableEq, Repr

/-- Whether the core was ever reset (rule R27). -/
inductive Lifecycle where
  | undefined | defined
  deriving DecidableEq, Repr

/-- Whether an `execute` call runs, and its remaining budget (rule R28). `returned` is the model's own (log 6):
the result of the last call (rule R62), lying at the interface; nothing in the core reads it (rule R74). -/
inductive Call where
  | idle
  | running (budget : Nat)
  | returned (outcome : ExecOutcome) (remaining : Nat)
  deriving DecidableEq, Repr

/-- Memory: the cells that hold something else than 0x00, by strictly rising address (rules R31, R35). An address
below 65536 that is not listed reads 0x00: memory is all-zero when created and after reset. -/
abbrev Memory := List Host.Cell

/-- The core's own state: the twelve fields of rule R13 and the lifecycle status (rule R27). Memory is no part of it
(rule R32). -/
structure CoreState where
  /-- PC, 16 bits (R19). -/
  pc : Word
  /-- SP, 16 bits (R21). -/
  sp : Word
  /-- A, 8 bits (R15). -/
  a : Byte
  /-- X, 8 bits (R16). -/
  x : Byte
  /-- Y, 8 bits (R17). -/
  y : Byte
  /-- Carry (R22). -/
  c : Bool
  /-- Zero (R22). -/
  z : Bool
  /-- Interrupt-disable (R22). -/
  i : Bool
  /-- Decimal (R22). -/
  d : Bool
  /-- Break (R22). -/
  b : Bool
  /-- Overflow (R22). -/
  v : Bool
  /-- Negative (R22). -/
  n : Bool
  /-- Lifecycle status (R27). -/
  lifecycle : Lifecycle
  deriving DecidableEq, Repr

/-- A core, and what it holds for the length of one call (rule R28): the memory it is lent and the remaining budget.
The host owns the memory (rule R32); where the host keeps it between calls is `Session` in Machine/HostOps.lean. -/
structure State extends CoreState where
  /-- The memory lent to the core for the call in progress (R28, R32), an input and output of that call. Between
  calls none is lent: the field is then empty, and nothing reads it. -/
  mem : Memory
  /-- The `execute` call in progress, with its remaining budget (R28). -/
  call : Call
  deriving DecidableEq, Repr

/-- Why the machine stops with a fault. -/
inductive Fault where
  /-- Raised by the self-check of Machine/SelfCheck.lean only, never by a step: a handler consumed other than its
  instruction's length (rule R71 (a); row U6 of 93_implementation_defined.md says to treat it as a fault in any
  self-check). Safe: it stops. -/
  | handlerCost
  deriving DecidableEq, Repr

/-- Why something is given no meaning. -/
inductive Refusal where
  /-- Raised by an arm of `exec` whose instruction has no meaning yet; no arm is left so. Safe: it stops. -/
  | notModelled (mnemonic : String)
  /-- Raised by an `execute` call, an observation and a loop pass on a core that was never reset (rule R27,
  decision D8). Safe: no claim about such a core can be proved. -/
  | coreUndefined
  /-- Raised by a host operation while a call runs (rule R115, decision D16, row U8). Safe for claims about runs:
  they say nothing of a host that breaks its duty (log 13). -/
  | callInProgress
  /-- Raised by the whole `execute` call if its loop had not returned after one pass more than its budget. Rule R72
  says it always has, and an obligation states so. Safe: it stops. -/
  | callUnfinished
  deriving DecidableEq, Repr

/-- The state right after `reset` under a configuration (rule R30): the same from any state (rule R108). No memory is
lent, and the one the reset was given has every cell at 0x00. -/
def State.resetWith (cfg : Config) : State :=
  { pc := cfg.resetVector, sp := cfg.spReset, a := 0, x := 0, y := 0,
    c := false, z := false, i := false, d := false, b := false, v := false, n := false,
    lifecycle := .defined, mem := [], call := .idle }

/-- The state right after reset, under the spec's default parameters (rules R7, R30). -/
def State.reset : State := State.resetWith defaultConfig

/-- A core just constructed, never reset, no memory lent (rule R27): its twelve fields are free values (log 7). -/
def State.constructed : State :=
  { pc := Config.undefinedWord 0, sp := Config.undefinedWord 1,
    a := Config.undefinedByte 0, x := Config.undefinedByte 1, y := Config.undefinedByte 2,
    c := Config.undefinedFlag 0, z := Config.undefinedFlag 1, i := Config.undefinedFlag 2,
    d := Config.undefinedFlag 3, b := Config.undefinedFlag 4, v := Config.undefinedFlag 5,
    n := Config.undefinedFlag 6,
    lifecycle := .undefined, mem := [], call := .idle }

end Sys2Proof.Machine
end

