-- ==== Sys2Proof/Machine/Ops.lean ====
section
/-! DEFINITION. The memory port, the register and flag writes, the budget, the fetch primitives, ending a call with an
outcome (the core's only exception entry), beginning the next one, and reset. -/

namespace Sys2Proof.Machine

/-! The memory cells -/

/-- The cell at an address: 0x00 where none is listed (rule R35). -/
def Memory.peek : Memory → Nat → Byte
  | [], _ => 0
  | cell :: cells, addr => if addr = cell.1 then cell.2 else Memory.peek cells addr

/-- Puts a cell in front of cells at higher addresses, unless it holds what an unlisted cell reads as. -/
def Memory.cons (addr : Nat) (v : Byte) (m : Memory) : Memory := if v = 0 then m else (addr, v) :: m

/-- Sets one cell, keeping the canonical form. -/
def Memory.poke : Memory → Nat → Byte → Memory
  | [], addr, v => Memory.cons addr v []
  | cell :: cells, addr, v =>
    if addr < cell.1 then Memory.cons addr v (cell :: cells)
    else if addr = cell.1 then Memory.cons addr v cells
    else cell :: Memory.poke cells addr v

/-- The canonical form above a bound: addresses strictly rising from `lo`, all below 65536, no cell listed at 0x00. -/
def Memory.wfFrom : Nat → Memory → Bool
  | _, [] => true
  | lo, cell :: cells =>
    decide (lo ≤ cell.1) && decide (cell.1 < 65536) && decide (cell.2 ≠ 0) && Memory.wfFrom (cell.1 + 1) cells

/-- Memory is in its one canonical form. -/
def Memory.wf (m : Memory) : Bool := Memory.wfFrom 0 m

/-! The memory port (rules R33 to R35) -/

/-- `MemRead(addr, 1)` (rule R33): any whole number is an address; from 65536 on it raises `OutOfRange`. -/
def memRead (m : Memory) (addr : Nat) : Except ExecOutcome Byte :=
  if 65536 ≤ addr then .error .outOfRange else .ok (m.peek addr)

/-- `MemWrite(addr, 1, v)` (rule R34): the same range check, and no partial write. -/
def memWrite (m : Memory) (addr : Nat) (v : Byte) : Except ExecOutcome Memory :=
  if 65536 ≤ addr then .error .outOfRange else .ok (m.poke addr v)

/-- `MemClear()` (rule R35): every cell is zero, whatever memory held. -/
def memClear (_ : Memory) : Memory := []

/-! Register and flag writes (rule R10) -/

def State.setPc (s : State) (w : Word) : State := { s with pc := w }
def State.setSp (s : State) (w : Word) : State := { s with sp := w }
def State.setA (s : State) (w : Byte) : State := { s with a := w }
def State.setX (s : State) (w : Byte) : State := { s with x := w }
def State.setY (s : State) (w : Byte) : State := { s with y := w }
def State.setC (s : State) (w : Bool) : State := { s with c := w }
def State.setZ (s : State) (w : Bool) : State := { s with z := w }
def State.setI (s : State) (w : Bool) : State := { s with i := w }
def State.setD (s : State) (w : Bool) : State := { s with d := w }
def State.setB (s : State) (w : Bool) : State := { s with b := w }
def State.setV (s : State) (w : Bool) : State := { s with v := w }
def State.setN (s : State) (w : Bool) : State := { s with n := w }
def State.setLifecycle (s : State) (w : Lifecycle) : State := { s with lifecycle := w }
def State.setMem (s : State) (w : Memory) : State := { s with mem := w }
def State.setCall (s : State) (w : Call) : State := { s with call := w }

/-! The cycle budget (rules R28, R64) -/

/-- The remaining budget. It exists only while a call runs (rule R28); outside one there is none to spend, and it
reads 0 (log 15). -/
def Call.budget : Call → Nat
  | .idle => 0
  | .running k => k
  | .returned _ _ => 0

/-- The remaining budget of the call in progress. -/
def State.budget (s : State) : Nat := s.call.budget

/-- Consumes one unit; the fetch primitives alone do so, after they found the budget above 0 (rule R64). -/
def State.spend (s : State) : State := s.setCall (.running (s.budget - 1))

/-- PC moves past one fetched byte, modulo 2^16 (rules R19, R20). -/
def State.advance (s : State) : State := s.setPc (s.pc + 1)

/-! Ending a call and beginning one -/

/-- `raise <Outcome>`, and the loop's returns (rules R69, R95, R98): the call ends at once with the outcome and the
remaining budget. Every write already made is kept; nothing is saved, pushed or rolled back, no mode changes and no
handler address is used. -/
def endCall (o : ExecOutcome) (s : State) : State := s.setCall (.returned o s.budget)

/-- The start of `execute` (rule R69): the core is lent the caller's memory for this call (rules R28, R32), and
`budget <- cycle_budget`. This is also the only way on after an outcome: there is no return from a trap (rule R99), and
the core goes on from the state as left (rule R74). -/
def beginCall (budget : Nat) (memory : Memory) (s : State) : State := (s.setMem memory).setCall (.running budget)

/-- The end of a call on the core's side: the memory goes back to its owner, and the core retains no reference to it
(rules R28, R32) and no record of the call (rule R74). -/
def State.handBack (s : State) : State := (s.setMem []).setCall .idle

/-! The fetch primitives (rules R65 to R68) -/

/-- `fetch_next_byte` (rule R65). The budget test comes before any effect (decision D6). -/
def fetchNextByte (s : State) : Except ExecOutcome (Byte × State) :=
  if s.budget = 0 then .error .budgetExhausted
  else
    match memRead s.mem s.pc.toNat with
    | .error o => .error o
    | .ok v => .ok (v, s.advance.spend)

/-- `peek_byte` (rule R66). No instruction uses it. -/
def peekByte (s : State) : Except ExecOutcome (Byte × State) :=
  if s.budget = 0 then .error .budgetExhausted
  else
    match memRead s.mem s.pc.toNat with
    | .error o => .error o
    | .ok v => .ok (v, s.spend)

/-- `read_indirect(addr)` (rule R67): the byte at `addr`, zero-extended, is the target; one unit for both reads
(90_conflicts.md C3, decision D12). No instruction uses it. -/
def readIndirect (addr : Word) (s : State) : Except ExecOutcome (Byte × State) :=
  if s.budget = 0 then .error .budgetExhausted
  else
    match memRead s.mem addr.toNat with
    | .error o => .error o
    | .ok p =>
      match memRead s.mem (p.setWidth 16).toNat with
      | .error o => .error o
      | .ok v => .ok (v, s.spend)

/-! Reset -/

/-- `reset(memory)` (rule R107), step by step: clear the memory it is given, then PC, SP, the seven flags, A, X and Y,
the lifecycle. Memory is its input and its output (rule R32). It reads no memory, consumes no budget and reports no
outcome: afterwards no call runs. -/
def resetMachine (cfg : Config) (memory : Memory) (s : State) : State × Memory :=
  let memory := memClear memory
  let s := s.setPc cfg.resetVector
  let s := s.setSp cfg.spReset
  let s := ((((((s.setC false).setZ false).setI false).setD false).setB false).setV false).setN false
  let s := ((s.setA 0).setX 0).setY 0
  ((s.setLifecycle .defined).handBack, memory)

end Sys2Proof.Machine
end

