-- ==== Sys2Proof/Machine/Operands.lean ====
section
/-! DEFINITION. The addressing modes of rule R75: immediate and implied. The third, single-level indirect, is `readIndirect` in Machine/Ops.lean. -/

namespace Sys2Proof.Machine

/-- The byte after the opcode, where a state stands after the opcode fetch: what an instruction that needs an
operand is made with. Looking at it consumes nothing and changes nothing (rule R43; log 11). -/
def operandByte (s : State) : Byte := s.mem.peek s.pc.toNat

/-- The operand fetch of an immediate instruction whose operand byte is `imm`: `fetch_next_byte` (rule R65) at a PC
where memory holds `imm` (log 11). -/
def fetchOperand (imm : Byte) (s : State) : Except ExecOutcome (Byte × State) :=
  if s.budget = 0 then .error .budgetExhausted else .ok (imm, s.advance.spend)

/-- Immediate mode (rule R75): fetches the operand and goes on with it. If the fetch raises `BudgetExhausted`, the
call ends with nothing else written (rules R71 (c), R93). -/
def withImmediate (imm : Byte) (s : State) (body : Byte → State → State) : Host.Outcome State Fault Refusal :=
  match fetchOperand imm s with
  | .error o => .next (endCall o s)
  | .ok (v, t) => .next (body v t)

/-- Implied mode (rule R75): there is no operand to fetch and nothing to raise (rule R70). -/
def withImplied (s : State) (body : State → State) : Host.Outcome State Fault Refusal := .next (body s)

end Sys2Proof.Machine
end

