-- ==== Sys2Proof/Machine/FlagClears.lean ====
section
/-! DEFINITION. The flag clears (44_flag_clears.md): each writes its named flag and no other, Z and N included (rule R80). -/

namespace Sys2Proof.Machine

/-- `CLC` (rule R87). -/
def execClc (s : State) : Host.Outcome State Fault Refusal := withImplied s fun s => s.setC false

/-- `CLD` (rule R88). -/
def execCld (s : State) : Host.Outcome State Fault Refusal := withImplied s fun s => s.setD false

/-- `CLI` (rule R89): there is no interrupt to enable (rule R96) and no privilege to check (rule R101). -/
def execCli (s : State) : Host.Outcome State Fault Refusal := withImplied s fun s => s.setI false

/-- `CLV` (rule R90). -/
def execClv (s : State) : Host.Outcome State Fault Refusal := withImplied s fun s => s.setV false

end Sys2Proof.Machine
end

