-- ==== Sys2Proof/Machine/Alu.lean ====
section
/-! DEFINITION. The three ALU operations of rule R77. Each makes a byte and nothing else: no carry, no overflow, no flag. -/

namespace Sys2Proof.Machine

/-- `alu_pass`: the loads (rule R77). -/
def aluPass (v : Byte) : Byte := v

/-- `alu_inc`: one more, modulo 256 (rule R77). -/
def aluInc (v : Byte) : Byte := v + 1

/-- `alu_low`: bits 7 to 0 of a 16-bit value (rule R77). -/
def aluLow (w : Word) : Byte := w.setWidth 8

end Sys2Proof.Machine
end

