-- ==== Sys2Proof/Machine/Flags.lean ====
section
/-! DEFINITION. The status-flag engine (rules R78, R79). The flag clears write their flag directly and do not use it (rule R80). -/

namespace Sys2Proof.Machine

/-- The Z flag of a result: set when it equals 0 (rule R78). -/
def zeroFlag (v : Byte) : Bool := decide (v = 0)

/-- The N flag of a result: its bit 7 (rule R78). -/
def negativeFlag (v : Byte) : Bool := v.getLsbD 7

/-- `setZN(v)`: writes Z and N and no other flag (rule R78). -/
def setZN (v : Byte) (s : State) : State := (s.setZ (zeroFlag v)).setN (negativeFlag v)

/-- Writes A, then takes Z and N from A as just written (rule R79). -/
def defineA (v : Byte) (s : State) : State :=
  let s := s.setA v
  setZN s.a s

/-- Writes X, then takes Z and N from X as just written (rule R79). -/
def defineX (v : Byte) (s : State) : State :=
  let s := s.setX v
  setZN s.x s

/-- Writes Y, then takes Z and N from Y as just written (rule R79). -/
def defineY (v : Byte) (s : State) : State :=
  let s := s.setY v
  setZN s.y s

end Sys2Proof.Machine
end

