-- ==== Sys2Proof/Machine/Increments.lean ====
section
/-! DEFINITION. The register increments (42_increments.md). -/

namespace Sys2Proof.Machine

/-- `INX` (rule R84). -/
def execInx (s : State) : Host.Outcome State Fault Refusal := withImplied s fun s => defineX (aluInc s.x) s

/-- `INY` (rule R85): reads and writes Y, never X (90_conflicts.md C1). -/
def execIny (s : State) : Host.Outcome State Fault Refusal := withImplied s fun s => defineY (aluInc s.y) s

end Sys2Proof.Machine
end

