-- ==== Sys2Proof/Machine/Loads.lean ====
section
/-! DEFINITION. The load-immediate instructions (41_loads.md). -/

namespace Sys2Proof.Machine

/-- `LDA #imm` (rule R81). -/
def execLdaImm (imm : Byte) (s : State) : Host.Outcome State Fault Refusal :=
  withImmediate imm s fun v t => defineA (aluPass v) t

/-- `LDX #imm` (rule R82). -/
def execLdxImm (imm : Byte) (s : State) : Host.Outcome State Fault Refusal :=
  withImmediate imm s fun v t => defineX (aluPass v) t

/-- `LDY #imm` (rule R83). -/
def execLdyImm (imm : Byte) (s : State) : Host.Outcome State Fault Refusal :=
  withImmediate imm s fun v t => defineY (aluPass v) t

end Sys2Proof.Machine
end

