-- ==== Sys2Proof/Machine/Transfers.lean ====
section
/-! DEFINITION. The register transfer (43_transfers.md). -/

namespace Sys2Proof.Machine

/-- `TSX` (rule R86): the low 8 bits of SP; SP itself is unchanged. -/
def execTsx (s : State) : Host.Outcome State Fault Refusal := withImplied s fun s => defineX (aluLow s.sp) s

end Sys2Proof.Machine
end

