-- ==== Sys2Proof/Machine/Dispatch.lean ====
section
/-! DEFINITION. One arm per instruction, each one direct call of its meaning. The state is the one after the opcode
fetch (41_loads.md): PC past the opcode byte, one unit spent. -/

namespace Sys2Proof.Machine

def exec (i : Instr) (s : State) : Host.Outcome State Fault Refusal :=
  match i with
  | .ldaImm imm => Sys2Proof.Machine.execLdaImm imm s
  | .ldxImm imm => Sys2Proof.Machine.execLdxImm imm s
  | .ldyImm imm => Sys2Proof.Machine.execLdyImm imm s
  | .inx => Sys2Proof.Machine.execInx s
  | .iny => Sys2Proof.Machine.execIny s
  | .tsx => Sys2Proof.Machine.execTsx s
  | .clc => Sys2Proof.Machine.execClc s
  | .cld => Sys2Proof.Machine.execCld s
  | .cli => Sys2Proof.Machine.execCli s
  | .clv => Sys2Proof.Machine.execClv s

end Sys2Proof.Machine
end

