-- ==== Sys2Proof/Machine/Engine.lean ====
section
/-! DEFINITION. The execute cycle controller (rule R69): one pass of its loop, and the whole loop of one call. -/

namespace Sys2Proof.Machine

/-- The state after a successful opcode fetch: PC past the opcode byte, one unit spent (rule R65). -/
def afterOpcode (s : State) : State := s.advance.spend

/-- The instruction bytes at PC and at PC + 1 modulo 2^16: all an instruction can be made of (rule R52). -/
def bytesAtPc (s : State) : List Byte := [s.mem.peek s.pc.toNat, s.mem.peek (s.pc + 1).toNat]

/-- The body of the loop (rule R69): fetch an opcode byte, look it up, and run its handler, or end the call with
`UnknownOpcode` and the address the byte was fetched from (rule R92). -/
def fetchAndRun (m : OpcodeMap) (s : State) : Host.Outcome State Fault Refusal :=
  match fetchNextByte s with
  | .error o => .next (endCall o s)
  | .ok (op, t) =>
    match m.lookup op with
    | none => .next (endCall (.unknownOpcode op s.pc) t)
    | some h => exec (h.instr (operandByte t)) t

/-- One pass of the loop (rules R69, R97). With no call running the core does nothing and keeps its whole state
(rule R106). A core that was never reset is refused (rule R27). At budget 0 the call ends with `Completed`. -/
def loopPass (m : OpcodeMap) (s : State) : Host.Outcome State Fault Refusal :=
  match s.call with
  | .idle => .next s
  | .returned _ _ => .next s
  | .running k =>
    match s.lifecycle with
    | .undefined => .refused .coreUndefined
    | .defined => if k = 0 then .next (endCall .completed s) else fetchAndRun m s

/-- Passes of the loop until the call has returned, at most the given number of them. -/
def runCall (m : OpcodeMap) : Nat → State → Host.Outcome State Fault Refusal
  | 0, s => .next s
  | passes + 1, s =>
    match s.call with
    | .idle => .next s
    | .returned _ _ => .next s
    | .running _ =>
      match loopPass m s with
      | .next t => runCall m passes t
      | .fault r => .fault r
      | .refused r => .refused r

/-- Places an instruction's two bytes at PC and PC + 1 modulo 2^16, and has an `execute` call run whose budget
reaches for any instruction: what it takes for the next pass to fetch and run it (log 10). -/
def placeAtPc (s : State) (bytes : List Byte) : State :=
  let m := s.mem.poke s.pc.toNat (bytes.getD 0 0)
  let m := m.poke (s.pc + 1).toNat (bytes.getD 1 0)
  (s.setMem m).setCall (.running (max s.budget 2))

end Sys2Proof.Machine
end

