-- ==== Sys2Proof/Machine/Step.lean ====
section
/-! DEFINITION. One step: one pass of the execute loop under the opcode map of rule R56; and the same instruction word placed for it. -/

namespace Sys2Proof.Machine

/-- One pass of the execute loop (rule R69). -/
def step (s : State) : Host.Outcome State Fault Refusal := loopPass defaultConfig.opcodeMap s

/-- The state with the instruction of an opcode-table word placed where the next step fetches (log 10). -/
def State.withFetchWord (s : State) (nbits w : Nat) : State := placeAtPc s (tableBytes nbits w)

end Sys2Proof.Machine
end

