-- ==== Sys2Proof/Machine/HostOps.lean ====
section
/-! DEFINITION. The operations the host can perform (rule R61), each a whole transaction that is given the host's memory
and hands it back, and what each answers; and the session of a host that owns one memory and lends it (rule R32). -/

namespace Sys2Proof.Machine

/-- The host's operations with their arguments: exactly these (rule R61). Memory is an argument of `reset` and of
`execute` (rule R32), and what the two memory accesses act on directly, not through the core (rule R37). -/
inductive HostOp where
  | reset (memory : Memory)
  | execute (budget : Nat) (memory : Memory)
  | observe
  | memWrite (memory : Memory) (addr : Nat) (v : Byte)
  | memRead (memory : Memory) (addr : Nat)
  deriving DecidableEq, Repr

/-- The twelve fields of rule R13, as the host reads them (rule R63). There is no packed status byte (rule R25). -/
structure Observation where
  pc : Word
  sp : Word
  a : Byte
  x : Byte
  y : Byte
  c : Bool
  z : Bool
  i : Bool
  d : Bool
  b : Bool
  v : Bool
  n : Bool
  deriving DecidableEq, Repr

/-- What an operation answers the host. -/
inductive HostReply where
  /-- Done, with nothing to answer but the memory as it is now (`reset`, a memory write). -/
  | done (memory : Memory)
  /-- The result of an `execute` call (rule R62), and the memory as the call leaves it (rule R32). -/
  | executed (outcome : ExecOutcome) (remaining : Nat) (memory : Memory)
  /-- The twelve fields (rule R63). -/
  | observed (o : Observation)
  /-- The byte read from memory (rule R33). -/
  | byte (v : Byte)
  /-- A memory access that failed (rule R94): memory is unchanged. -/
  | failed (o : ExecOutcome)
  deriving DecidableEq, Repr

/-- Reads all twelve fields (rule R63). -/
def observation (s : State) : Observation :=
  { pc := s.pc, sp := s.sp, a := s.a, x := s.x, y := s.y,
    c := s.c, z := s.z, i := s.i, d := s.d, b := s.b, v := s.v, n := s.n }

/-- Whether a call runs. -/
def inCall (s : State) : Bool :=
  match s.call with
  | .idle => false
  | .running _ => true
  | .returned _ _ => false

/-- `execute(budget, memory)` (rule R69): refused on a core that was never reset (rule R27); else the loop, which ends
within one pass more than the budget (rule R72). The memory is lent for the call and handed back with the result
(rule R32); neither it nor any record of the result stays in the core (rules R28, R74). -/
def executeCall (cfg : Config) (budget : Nat) (memory : Memory) (s : State) : Host.Outcome (State × HostReply) Fault Refusal :=
  match s.lifecycle with
  | .undefined => .refused .coreUndefined
  | .defined =>
    match runCall cfg.opcodeMap (budget + 1) (beginCall budget memory s) with
    | .next t =>
      match t.call with
      | .returned o remaining => .next (t.handBack, .executed o remaining t.mem)
      | .running _ => .refused .callUnfinished
      | .idle => .refused .callUnfinished
    | .fault r => .fault r
    | .refused r => .refused r

/-- A memory write by the host, on memory directly (rules R34, R37, R94). -/
def hostWrite (memory : Memory) (addr : Nat) (v : Byte) : HostReply :=
  match memWrite memory addr v with
  | .ok m => .done m
  | .error o => .failed o

/-- A memory read by the host, on memory directly (rules R33, R94). -/
def hostRead (memory : Memory) (addr : Nat) : HostReply :=
  match memRead memory addr with
  | .ok v => .byte v
  | .error o => .failed o

/-- An observation by the host (rule R63); a core that was never reset has no values to read (rule R27). -/
def hostObserve (s : State) : Host.Outcome (State × HostReply) Fault Refusal :=
  match s.lifecycle with
  | .undefined => .refused .coreUndefined
  | .defined => .next (s, .observed (observation s))

/-- One host operation: the next state and the answer. The host acts only between calls (rules R47, R115): while a
call runs there is no move (decision D16, row U8). -/
def performOp (cfg : Config) (op : HostOp) (s : State) : Host.Outcome (State × HostReply) Fault Refusal :=
  if inCall s then .refused .callInProgress
  else
    match op with
    | .reset memory => .next ((resetMachine cfg memory s).1, .done (resetMachine cfg memory s).2)
    | .execute budget memory => executeCall cfg budget memory s
    | .observe => hostObserve s
    | .memWrite memory addr v => .next (s, hostWrite memory addr v)
    | .memRead memory addr => .next (s, hostRead memory addr)

/-! The session -/

/-- A host's session: a core, and the one memory the host owns for the session and lends to it (rule R32). -/
structure Session where
  core : State
  memory : Memory
  deriving DecidableEq, Repr

/-- The session as the host constructs it (rule R110): a core never reset and a memory of zeroed cells (rules R32, R35). -/
def Session.created : Session := { core := State.constructed, memory := [] }

/-- What the host does in its session: an operation of rule R61, its memory argument being the session's own memory. -/
inductive HostAct where
  | reset
  | execute (budget : Nat)
  | observe
  | memWrite (addr : Nat) (v : Byte)
  | memRead (addr : Nat)
  deriving DecidableEq, Repr

/-- The operation an act is, once the session's memory is passed to it. -/
def HostAct.withMemory : HostAct → Memory → HostOp
  | .reset, memory => .reset memory
  | .execute budget, memory => .execute budget memory
  | .observe, _ => .observe
  | .memWrite addr v, memory => .memWrite memory addr v
  | .memRead addr, memory => .memRead memory addr

/-- The memory after an operation: what it hands back, or what it was where it hands none back (an observation, a read,
and an access that failed change no cell, rules R63, R33, R34). -/
def HostReply.memoryAfter : HostReply → Memory → Memory
  | .done memory, _ => memory
  | .executed _ _ memory, _ => memory
  | .observed _, memory => memory
  | .byte _, memory => memory
  | .failed _, memory => memory

/-- One act of the host in its session: the operation is given the session's memory, and the session keeps the memory
it hands back (rule R32). -/
def sessionAct (cfg : Config) (a : HostAct) (h : Session) : Host.Outcome (Session × HostReply) Fault Refusal :=
  match performOp cfg (a.withMemory h.memory) h.core with
  | .next (t, r) => .next ({ core := t, memory := r.memoryAfter h.memory }, r)
  | .fault f => .fault f
  | .refused r => .refused r

end Sys2Proof.Machine
end

