-- ==== Sys2Proof/Machine/SelfCheck.lean ====
section
/-! DEFINITION. The self-check of row U6 of 93_implementation_defined.md: a handler that consumes other than its instruction's length is a fault. -/

namespace Sys2Proof.Machine

/-- Whether a handler run from `s` to `t` inside a call kept to its cost (rule R71 (a)), counting the opcode fetch the
loop had already made: it consumed exactly its instruction's length, or it ended the call and the budget did not reach
that length. Outside a call there is no budget to measure (rule R28, log 15). -/
def costKept (i : Instr) (s t : State) : Bool :=
  match s.call with
  | .idle => true
  | .returned _ _ => true
  | .running k =>
    match t.call with
    | .running j => decide (j + i.length = k + 1)
    | .returned _ _ => decide (k + 1 < i.length)
    | .idle => false

/-- `exec` with the self-check of row U6 around it. -/
def checkedExec (i : Instr) (s : State) : Host.Outcome State Fault Refusal :=
  match exec i s with
  | .next t => if costKept i s t then .next t else .fault .handlerCost
  | .fault r => .fault r
  | .refused r => .refused r

end Sys2Proof.Machine
end

