-- ==== Sys2Proof/Safety.lean ====
section
/-! DEFINITION. What claims speak of: the invariants, the reset-reachable states of rule R29, and states alike but for some fields. -/

namespace Sys2Proof.Machine

/-- The five flags no instruction computes are clear (rule R24). -/
def State.explicitFlagsClear (s : State) : Bool := !s.c && !s.i && !s.d && !s.b && !s.v

/-- What holds from reset on (rules R21, R24, R27): the core was reset, the memory it is lent is in canonical form, SP is
as reset set it, and C, I, D, B and V are 0. -/
def Inv (cfg : Config) (s : State) : Prop :=
  s.lifecycle = .defined ∧ s.mem.wf = true ∧ s.sp = cfg.spReset ∧ s.explicitFlagsClear = true

/-- The sessions some sequence of host operations starting with `reset` produces (rule R29): the core they hold is
reset-reachable, and the memory is what the host then owns. -/
inductive ResetReachable (cfg : Config) : Session → Prop where
  | reset (g h : Session) (r : HostReply) : sessionAct cfg .reset g = .next (h, r) → ResetReachable cfg h
  | act (g h : Session) (a : HostAct) (r : HostReply) :
      ResetReachable cfg g → sessionAct cfg a g = .next (h, r) → ResetReachable cfg h

/-- Every byte of the memory lent reads the same. -/
def sameMemory (s t : State) : Prop := ∀ addr : Nat, t.mem.peek addr = s.mem.peek addr

/-- A state with its seven flags forgotten. -/
def State.eraseFlags (s : State) : State :=
  ((((((s.setC false).setZ false).setI false).setD false).setB false).setV false).setN false

/-- A state with A, X, Y, SP and the flags forgotten: PC, memory, the lifecycle and the call are left. -/
def State.eraseData (s : State) : State := (((s.eraseFlags.setA 0).setX 0).setY 0).setSp 0

/-- A safe run, in the terms claims use: an `execute` call that ended with `Completed`, which means only that its
budget ran out at an instruction boundary (rule R73). The memory comes back as it was given. -/
def CompletedRun (cfg : Config) (budget : Nat) (memory : Memory) (s t : State) : Prop :=
  performOp cfg (.execute budget memory) s = .next (t, .executed .completed 0 memory)

end Sys2Proof.Machine
end

