-- ==== Sys2Proof/Certificates/Slice0/Obligations.lean ====
section
/-! DEFINITION. The statements for the provers, each read from the rules of spec/ it names. -/

open Sys2Proof Sys2Proof.Machine

/-! Encoding -/

/-- Every instruction decodes back from its encoding, whatever bytes follow, under every well-formed opcode map
(30_encoding.md sections 1 to 3). -/
def Obligations.EncodedInstructionDecodesBack : Prop :=
  ∀ m : OpcodeMap, m.wellFormed = true → ∀ i : Instr, i.wellFormed = true →
    ∃ bytes, encode m i = some bytes ∧ bytes.length = i.length ∧
      ∀ rest, decode m (bytes ++ rest) = .instr i rest

/-- Every instruction decoded is decoded from exactly its encoding, under every well-formed opcode map: no bit of
the bytes read is dropped (30_encoding.md sections 1 to 3). -/
def Obligations.DecodedBytesAreTheEncoding : Prop :=
  ∀ m : OpcodeMap, m.wellFormed = true → ∀ (bytes rest : List Byte) (i : Instr),
    decode m bytes = .instr i rest → ∃ own, bytes = own ++ rest ∧ encode m i = some own

/-- The words of the opcode table decode to the instructions they stand for, and 0xFF and 0x00 decode to none. The
byte values are decision D1 of the spec (92_eei_decisions.md, log 1), not a rule of its source. -/
def Obligations.TableWordsDecode : Prop :=
  decodeTableWord 16 0x42A9 = some (.ldaImm 0x42) ∧ decodeTableWord 8 0xA9 = some (.ldaImm 0) ∧
  decodeTableWord 16 0xFFA2 = some (.ldxImm 0xFF) ∧ decodeTableWord 16 0x7FA0 = some (.ldyImm 0x7F) ∧
  decodeTableWord 8 0xE8 = some .inx ∧ decodeTableWord 8 0xC8 = some .iny ∧ decodeTableWord 8 0xBA = some .tsx ∧
  decodeTableWord 8 0x18 = some .clc ∧ decodeTableWord 8 0xD8 = some .cld ∧ decodeTableWord 8 0x58 = some .cli ∧
  decodeTableWord 8 0xB8 = some .clv ∧ decodeTableWord 8 0xFF = none ∧ decodeTableWord 8 0 = none

/-- Exactly ten opcode bytes are mapped; the other 246 are not. The byte values are decision D1 of the spec
(92_eei_decisions.md, log 1), not a rule of its source. -/
def Obligations.ExactlyTenOpcodesAreMapped : Prop :=
  ∀ op : Byte, defaultOpcodeMap.lookup op = none ↔
    op ∉ ([0x18, 0x58, 0xA0, 0xA2, 0xA9, 0xB8, 0xBA, 0xC8, 0xD8, 0xE8] : List Byte)

/-- Rule R55: the operand byte never changes how an instruction decodes. Under any opcode map, two byte strings with
one opcode byte decode to instructions of one handler and one length, or both to none. -/
def Obligations.OperandNeverChangesDecoding : Prop :=
  ∀ (m : OpcodeMap) (op v w : Byte) (rest : List Byte),
    (∀ i after, decode m (op :: v :: rest) = .instr i after →
      ∃ j after', decode m (op :: w :: rest) = .instr j after' ∧ m.lookup op = some j.handler ∧
        j.handler = i.handler ∧ j.length = i.length) ∧
    (decode m (op :: v :: rest) = .unmapped op → decode m (op :: w :: rest) = .unmapped op)

/-- Rule R53: the loads have format IMM and length 2, the others format IMP and length 1; and with the opcode fetch
counted an instruction consumes as many budget units as its length. -/
def Obligations.LengthIsFormatAndCost : Prop :=
  (∀ imm : Byte, (Instr.ldaImm imm).handler.format = .imm ∧ (Instr.ldaImm imm).length = 2 ∧
    (Instr.ldxImm imm).handler.format = .imm ∧ (Instr.ldxImm imm).length = 2 ∧
    (Instr.ldyImm imm).handler.format = .imm ∧ (Instr.ldyImm imm).length = 2) ∧
  (∀ i ∈ [Instr.inx, .iny, .tsx, .clc, .cld, .cli, .clv], i.handler.format = .imp ∧ i.length = 1) ∧
  (∀ (i : Instr) (s : State) (k : Nat), s.call = .running k → i.length ≤ k + 1 →
    ∃ t, exec i s = .next t ∧ t.call = .running (k + 1 - i.length))

/-! A step -/

/-- When the bytes at PC decode to a well-formed instruction, a step of a running call with a unit left is `exec` of
it, at the state after the opcode fetch: PC one further modulo 2^16, one unit spent, all else as it was
(40_execute_engine.md section 4). That PC wraps is decision D4 of the spec (log 4). That the instruction is made with
the operand byte before its own fetch is an inference of the model (log 11), and that a step is one pass is its choice
(log 9). -/
def Obligations.StepRunsTheDecodedInstruction : Prop :=
  ∀ (s : State) (k : Nat) (i : Instr) (rest : List Byte),
    s.lifecycle = .defined → s.call = .running (k + 1) →
    decode defaultOpcodeMap (bytesAtPc s) = .instr i rest → i.wellFormed = true →
    step s = exec i (afterOpcode s) ∧
      afterOpcode s = { s with pc := s.pc + 1, call := .running k }

/-- A pass that fetches an unmapped opcode byte ends the call with `UnknownOpcode`, the byte and the address it was
fetched from, under any opcode map: PC one past it, one unit consumed, every register, flag and byte of memory as it
was (60_exceptions.md section 1). That the increment wraps is decision D4 (log 4), that the rest of the budget is
returned is decision D7 (log 6). -/
def Obligations.UnknownOpcodeEndsTheCall : Prop :=
  ∀ (m : OpcodeMap) (s : State) (k : Nat),
    s.lifecycle = .defined → s.call = .running (k + 1) → m.lookup (s.mem.peek s.pc.toNat) = none →
    ∃ t, loopPass m s = .next t ∧
      t.call = .returned (.unknownOpcode (s.mem.peek s.pc.toNat) s.pc) k ∧
      t.pc.toNat = (s.pc.toNat + 1) % 65536 ∧
      t.sp = s.sp ∧ t.a = s.a ∧ t.x = s.x ∧ t.y = s.y ∧
      t.c = s.c ∧ t.z = s.z ∧ t.i = s.i ∧ t.d = s.d ∧ t.b = s.b ∧ t.v = s.v ∧ t.n = s.n ∧
      t.lifecycle = s.lifecycle ∧ sameMemory s t

/-- A step whose budget ends between a load's opcode and its operand ends the call with `BudgetExhausted`, 0 left:
PC one past the opcode, every register, flag and byte of memory as it was (60_exceptions.md section 1). What stands
after the failed fetch is decision D6 of the spec (log 5), that PC wraps is D4 (log 4), and the returned budget and its
place in the state are D7 and the model's (log 6): no rules of its source. -/
def Obligations.BudgetInsideALoadEndsTheCall : Prop :=
  ∀ (s : State) (i : Instr) (rest : List Byte),
    s.lifecycle = .defined → s.call = .running 1 →
    decode defaultOpcodeMap (bytesAtPc s) = .instr i rest → i.length = 2 →
    ∃ t, step s = .next t ∧ t.call = .returned .budgetExhausted 0 ∧
      t.pc.toNat = (s.pc.toNat + 1) % 65536 ∧
      t.sp = s.sp ∧ t.a = s.a ∧ t.x = s.x ∧ t.y = s.y ∧
      t.c = s.c ∧ t.z = s.z ∧ t.i = s.i ∧ t.d = s.d ∧ t.b = s.b ∧ t.v = s.v ∧ t.n = s.n ∧
      t.lifecycle = s.lifecycle ∧ sameMemory s t

/-- At budget 0 a pass ends the call with `Completed`, 0 left, before any fetch: nothing else changes, whatever byte
stands at PC (40_execute_engine.md section 4). The returned budget and its place in the state are decision D7 of the spec
and the model's (log 6), and that a step is one pass is the model's (log 9). -/
def Obligations.BudgetZeroCompletesBeforeAnyFetch : Prop :=
  ∀ s : State, s.lifecycle = .defined → s.call = .running 0 →
    step s = .next { s with call := .returned .completed 0 }

/-- With no call running a step changes nothing (60_exceptions.md section 6). That the core is idle between calls is
decision D11 of the spec (log 9), not a rule of its source. -/
def Obligations.NoCallNoChange : Prop :=
  ∀ s : State, (∀ k, s.call ≠ .running k) → step s = .next s

/-- A core that was never reset is refused: as a call, as an observation, and as a pass of the loop; reset is not,
and after it the core is defined (10_state.md section 7). The refusal is decision D8 of the spec (log 7). -/
def Obligations.NeverResetCoreIsRefused : Prop :=
  ∀ (cfg : Config) (s : State), s.lifecycle = .undefined →
    (inCall s = false →
      (∀ k m, performOp cfg (.execute k m) s = .refused .coreUndefined) ∧
      performOp cfg .observe s = .refused .coreUndefined ∧
      ∀ m, ∃ t m', performOp cfg (.reset m) s = .next (t, .done m') ∧ t.lifecycle = .defined) ∧
    (inCall s = true → step s = .refused .coreUndefined)

/-- Each instruction moves PC by its length modulo 2^16 and consumes as many units, in one step, whenever the budget
reaches (10_state.md section 3). That PC wraps is decision D4 of the spec (log 4), not a rule of its source. -/
def Obligations.StepAdvancesByTheLength : Prop :=
  ∀ (s : State) (k : Nat) (i : Instr) (rest : List Byte),
    s.lifecycle = .defined → s.call = .running k →
    decode defaultOpcodeMap (bytesAtPc s) = .instr i rest → i.length ≤ k →
    ∃ t, step s = .next t ∧ t.pc.toNat = (s.pc.toNat + i.length) % 65536 ∧ t.call = .running (k - i.length)

/-! The instructions. `exec` starts after the opcode fetch: PC past the opcode byte, one unit spent. -/

/-- `LDA #imm` with a unit left: A, Z and N from the operand, PC past it, one unit spent, all else unchanged
(41_loads.md). The PC wraps by decision D4 of the spec (log 4). -/
def Obligations.LdaLoadsTheAccumulator : Prop :=
  ∀ (imm : Byte) (s : State), 0 < s.budget →
    ∃ t, exec (.ldaImm imm) s = .next t ∧
      t.a = imm ∧ (t.z = true ↔ imm = 0) ∧ (t.n = true ↔ 128 ≤ imm.toNat) ∧
      t.pc.toNat = (s.pc.toNat + 1) % 65536 ∧ t.call = .running (s.budget - 1) ∧
      t.x = s.x ∧ t.y = s.y ∧ t.sp = s.sp ∧
      t.c = s.c ∧ t.i = s.i ∧ t.d = s.d ∧ t.b = s.b ∧ t.v = s.v ∧
      t.lifecycle = s.lifecycle ∧ sameMemory s t

/-- `LDX #imm` with a unit left: X, Z and N from the operand, never from A; PC past it, one unit spent, all else
unchanged (41_loads.md). The PC wraps by decision D4 of the spec (log 4). -/
def Obligations.LdxLoadsX : Prop :=
  ∀ (imm : Byte) (s : State), 0 < s.budget →
    ∃ t, exec (.ldxImm imm) s = .next t ∧
      t.x = imm ∧ (t.z = true ↔ imm = 0) ∧ (t.n = true ↔ 128 ≤ imm.toNat) ∧
      t.pc.toNat = (s.pc.toNat + 1) % 65536 ∧ t.call = .running (s.budget - 1) ∧
      t.a = s.a ∧ t.y = s.y ∧ t.sp = s.sp ∧
      t.c = s.c ∧ t.i = s.i ∧ t.d = s.d ∧ t.b = s.b ∧ t.v = s.v ∧
      t.lifecycle = s.lifecycle ∧ sameMemory s t

/-- `LDY #imm` with a unit left: Y, Z and N from the operand, PC past it, one unit spent, all else unchanged
(41_loads.md). The PC wraps by decision D4 of the spec (log 4). -/
def Obligations.LdyLoadsY : Prop :=
  ∀ (imm : Byte) (s : State), 0 < s.budget →
    ∃ t, exec (.ldyImm imm) s = .next t ∧
      t.y = imm ∧ (t.z = true ↔ imm = 0) ∧ (t.n = true ↔ 128 ≤ imm.toNat) ∧
      t.pc.toNat = (s.pc.toNat + 1) % 65536 ∧ t.call = .running (s.budget - 1) ∧
      t.a = s.a ∧ t.x = s.x ∧ t.sp = s.sp ∧
      t.c = s.c ∧ t.i = s.i ∧ t.d = s.d ∧ t.b = s.b ∧ t.v = s.v ∧
      t.lifecycle = s.lifecycle ∧ sameMemory s t

/-- A load with no unit left ends the call with `BudgetExhausted`, 0 left, and writes nothing else, PC included
(41_loads.md). What stands after the failed fetch is decision D6 of the spec (log 5), the returned budget is D7 (log 6),
and that the budget reads 0 where no call runs, so that this covers such states too, is the model's choice (log 15). -/
def Obligations.LoadWithoutAUnitWritesNothing : Prop :=
  ∀ (imm : Byte) (s : State), s.budget = 0 →
    ∀ i ∈ [Instr.ldaImm imm, .ldxImm imm, .ldyImm imm],
      exec i s = .next { s with call := .returned .budgetExhausted 0 }

/-- `INX`: X one more modulo 256, Z and N from the new X, all else unchanged, the carry too (42_increments.md). -/
def Obligations.InxIncrementsX : Prop :=
  ∀ s : State, ∃ t, exec .inx s = .next t ∧
    t.x.toNat = (s.x.toNat + 1) % 256 ∧ (t.z = true ↔ s.x = 0xFF) ∧
    (t.n = true ↔ 127 ≤ s.x.toNat ∧ s.x.toNat < 255) ∧
    t.a = s.a ∧ t.y = s.y ∧ t.sp = s.sp ∧ t.pc = s.pc ∧ t.call = s.call ∧
    t.c = s.c ∧ t.i = s.i ∧ t.d = s.d ∧ t.b = s.b ∧ t.v = s.v ∧
    t.lifecycle = s.lifecycle ∧ sameMemory s t

/-- `INY`: Y one more modulo 256, Z and N from the new Y, all else unchanged, X too (42_increments.md,
90_conflicts.md C1). -/
def Obligations.InyIncrementsY : Prop :=
  ∀ s : State, ∃ t, exec .iny s = .next t ∧
    t.y.toNat = (s.y.toNat + 1) % 256 ∧ (t.z = true ↔ s.y = 0xFF) ∧
    (t.n = true ↔ 127 ≤ s.y.toNat ∧ s.y.toNat < 255) ∧
    t.a = s.a ∧ t.x = s.x ∧ t.sp = s.sp ∧ t.pc = s.pc ∧ t.call = s.call ∧
    t.c = s.c ∧ t.i = s.i ∧ t.d = s.d ∧ t.b = s.b ∧ t.v = s.v ∧
    t.lifecycle = s.lifecycle ∧ sameMemory s t

/-- `TSX`: X the low 8 bits of SP, Z and N from the new X and never from all of SP, all else unchanged, SP too
(43_transfers.md). -/
def Obligations.TsxTransfersTheLowByte : Prop :=
  ∀ s : State, ∃ t, exec .tsx s = .next t ∧
    t.x.toNat = s.sp.toNat % 256 ∧ (t.z = true ↔ s.sp.toNat % 256 = 0) ∧
    (t.n = true ↔ 128 ≤ s.sp.toNat % 256) ∧
    t.a = s.a ∧ t.y = s.y ∧ t.sp = s.sp ∧ t.pc = s.pc ∧ t.call = s.call ∧
    t.c = s.c ∧ t.i = s.i ∧ t.d = s.d ∧ t.b = s.b ∧ t.v = s.v ∧
    t.lifecycle = s.lifecycle ∧ sameMemory s t

/-- Rule R80: each of the flag clears clears its named flag and leaves all others, Z and N included, untouched; and
every register, PC, the budget and memory. -/
def Obligations.ClearsTouchOnlyTheirFlag : Prop :=
  ∀ s : State,
    (∃ t, exec .clc s = .next t ∧ t.c = false ∧ t = { s with c := t.c }) ∧
    (∃ t, exec .cld s = .next t ∧ t.d = false ∧ t = { s with d := t.d }) ∧
    (∃ t, exec .cli s = .next t ∧ t.i = false ∧ t = { s with i := t.i }) ∧
    (∃ t, exec .clv s = .next t ∧ t.v = false ∧ t = { s with v := t.v })

/-- Rule R79: Z and N are those of the value just written to the instruction's own destination register: A for LDA,
X for LDX, INX and TSX, Y for LDY and INY. -/
def Obligations.FlagsFollowTheRegisterWritten : Prop :=
  ∀ (imm : Byte) (s : State),
    (0 < s.budget →
      (∃ t, exec (.ldaImm imm) s = .next t ∧ (t.z = true ↔ t.a = 0) ∧ t.n = t.a.getLsbD 7) ∧
      (∃ t, exec (.ldxImm imm) s = .next t ∧ (t.z = true ↔ t.x = 0) ∧ t.n = t.x.getLsbD 7) ∧
      (∃ t, exec (.ldyImm imm) s = .next t ∧ (t.z = true ↔ t.y = 0) ∧ t.n = t.y.getLsbD 7)) ∧
    (∃ t, exec .inx s = .next t ∧ (t.z = true ↔ t.x = 0) ∧ t.n = t.x.getLsbD 7) ∧
    (∃ t, exec .iny s = .next t ∧ (t.z = true ↔ t.y = 0) ∧ t.n = t.y.getLsbD 7) ∧
    (∃ t, exec .tsx s = .next t ∧ (t.z = true ↔ t.x = 0) ∧ t.n = t.x.getLsbD 7)

/-! The flag engine and the ALU -/

/-- Rule R78: `setZN` writes Z and N from its value and nothing else. -/
def Obligations.FlagEngineWritesZAndN : Prop :=
  ∀ (r : Byte) (s : State),
    ((setZN r s).z = true ↔ r = 0) ∧ ((setZN r s).n = true ↔ 128 ≤ r.toNat) ∧
    setZN r s = { s with z := (setZN r s).z, n := (setZN r s).n }

/-- The three ALU operations on unsigned values: pass, one more modulo 256, the low 8 bits of 16 (40_execute_engine.md
section 6). -/
def Obligations.AluOperations : Prop :=
  (∀ r : Byte, aluPass r = r ∧ (aluInc r).toNat = (r.toNat + 1) % 256) ∧
  (∀ w : Word, (aluLow w).toNat = w.toNat % 256) ∧ aluInc 0xFF = 0

/-! The fetch unit -/

/-- `fetch_next_byte`: at budget 0 it raises `BudgetExhausted`; else it answers the byte at PC, moves PC one on
modulo 2^16 and consumes one unit, and changes nothing else (40_execute_engine.md section 3). The wrap is decision D4
and the failure decision D6 of the spec (logs 4 and 5); that the budget reads 0 where no call runs is the model's choice
(log 15). -/
def Obligations.FetchNextByte : Prop :=
  ∀ s : State,
    (s.budget = 0 → fetchNextByte s = .error .budgetExhausted) ∧
    (0 < s.budget → ∃ t, fetchNextByte s = .ok (s.mem.peek s.pc.toNat, t) ∧
      t.pc.toNat = (s.pc.toNat + 1) % 65536 ∧ t = { s with pc := t.pc, call := .running (s.budget - 1) })

/-- `peek_byte` at budget 0 raises `BudgetExhausted`; else it answers the byte at PC and consumes one unit,
and changes no flag and no register (40_execute_engine.md section 3). That the budget reads 0 where no call runs is the
model's choice (log 15). -/
def Obligations.PeekByte : Prop :=
  ∀ s : State,
    (s.budget = 0 → peekByte s = .error .budgetExhausted) ∧
    (0 < s.budget → peekByte s = .ok (s.mem.peek s.pc.toNat, { s with call := .running (s.budget - 1) }))

/-- `read_indirect(addr)`: at budget 0 it raises `BudgetExhausted`; else the byte at `addr` is a pointer into 0x0000
to 0x00FF, the byte there is the answer, one unit pays for both reads, and nothing else changes
(40_execute_engine.md section 3). Its details are decision D12 of the spec (log 14), and that the budget reads 0 where no
call runs is the model's choice (log 15). -/
def Obligations.ReadIndirect : Prop :=
  ∀ (addr : Word) (s : State),
    (s.budget = 0 → readIndirect addr s = .error .budgetExhausted) ∧
    (0 < s.budget → readIndirect addr s =
      .ok (s.mem.peek (s.mem.peek addr.toNat).toNat, { s with call := .running (s.budget - 1) }))

/-- Rule R68: the fetch primitives never mutate a flag, and the only register any of them writes is PC, which only
`fetch_next_byte` writes. -/
def Obligations.FetchesWriteNoFlag : Prop :=
  ∀ (addr : Word) (s t : State) (r : Byte),
    (fetchNextByte s = .ok (r, t) ∨ peekByte s = .ok (r, t) ∨ readIndirect addr s = .ok (r, t) →
      t.c = s.c ∧ t.z = s.z ∧ t.i = s.i ∧ t.d = s.d ∧ t.b = s.b ∧ t.v = s.v ∧ t.n = s.n ∧
      t.sp = s.sp ∧ t.a = s.a ∧ t.x = s.x ∧ t.y = s.y) ∧
    (peekByte s = .ok (r, t) ∨ readIndirect addr s = .ok (r, t) → t.pc = s.pc)

/-! Memory -/

/-- Rule R36: a byte written reads back, every other cell is unchanged, and from 65536 on both accesses raise
`OutOfRange`. The premise is the canonical form, which every operation keeps. -/
def Obligations.WriteThenRead : Prop :=
  (∀ (m : Memory) (addr : Nat) (r : Byte), m.wf = true → addr < 65536 →
    ∃ m', memWrite m addr r = .ok m' ∧ memRead m' addr = .ok r ∧
      ∀ other, other ≠ addr → memRead m' other = memRead m other) ∧
  (∀ (m : Memory) (addr : Nat) (r : Byte), 65536 ≤ addr →
    memRead m addr = .error .outOfRange ∧ memWrite m addr r = .error .outOfRange)

/-- Memory has one form: a write keeps it, clearing gives it, and two memories of that form that read the same
everywhere are the same data (20_memory.md section 2; the form is the model's, log 16). -/
def Obligations.MemoryHasOneForm : Prop :=
  (∀ (m m' : Memory) (addr : Nat) (r : Byte), m.wf = true → memWrite m addr r = .ok m' → m'.wf = true) ∧
  (∀ m : Memory, (memClear m).wf = true ∧ ∀ addr, (memClear m).peek addr = 0) ∧
  (∀ m m' : Memory, m.wf = true → m'.wf = true → (∀ addr, m.peek addr = m'.peek addr) → m = m')

/-- Rule R94: from 65536 on `MemRead` and `MemWrite` raise `OutOfRange`, and so a host's read and write answer it, no
cell and nothing else changing; no `execute` call ever ends with it. -/
def Obligations.OutOfRangeIsTheHostsAlone : Prop :=
  (∀ (m : Memory) (addr : Nat) (r : Byte), 65536 ≤ addr →
    memRead m addr = .error .outOfRange ∧ memWrite m addr r = .error .outOfRange) ∧
  (∀ (cfg : Config) (h : Session) (addr : Nat) (r : Byte), inCall h.core = false → 65536 ≤ addr →
    sessionAct cfg (.memRead addr) h = .next (h, .failed .outOfRange) ∧
    sessionAct cfg (.memWrite addr r) h = .next (h, .failed .outOfRange)) ∧
  (∀ (cfg : Config) (k left : Nat) (m m' : Memory) (s t : State) (o : ExecOutcome),
    performOp cfg (.execute k m) s = .next (t, .executed o left m') → o ≠ .outOfRange)

/-- A byte the host writes between calls is what the next fetch of that address reads (20_memory.md section 6; the spec
marks the inference as its own). -/
def Obligations.HostWriteIsFetched : Prop :=
  ∀ (cfg : Config) (g : Session) (r : Byte) (k : Nat), inCall g.core = false → g.memory.wf = true →
    ∃ h m u, sessionAct cfg (.memWrite g.core.pc.toNat r) g = .next (h, .done m) ∧ h.core = g.core ∧
      fetchNextByte (beginCall (k + 1) h.memory h.core) = .ok (r, u)

/-! Reset -/

/-- Rule R107: from any state between calls and any memory, reset answers no outcome and cannot fail; the memory it
hands back is all 0x00, PC the configured reset vector, SP the configured value, A, X, Y and the seven flags 0, and the
core defined. -/
def Obligations.ResetLeaves : Prop :=
  ∀ (cfg : Config) (m : Memory) (s : State), inCall s = false →
    ∃ t m', performOp cfg (.reset m) s = .next (t, .done m') ∧
      (∀ addr, m'.peek addr = 0) ∧ t.pc = cfg.resetVector ∧ t.sp = cfg.spReset ∧
      t.c = false ∧ t.z = false ∧ t.i = false ∧ t.d = false ∧ t.b = false ∧ t.v = false ∧ t.n = false ∧
      t.a = 0 ∧ t.x = 0 ∧ t.y = 0 ∧ t.lifecycle = .defined

/-- Rule R108: reset gives one state and one memory from any state and any memory, so a second reset changes nothing. -/
def Obligations.ResetIsIdempotent : Prop :=
  ∀ (cfg : Config) (m m' : Memory) (s s' : State), inCall s = false → inCall s' = false →
    ∃ t m'', performOp cfg (.reset m) s = .next (t, .done m'') ∧ performOp cfg (.reset m') s' = .next (t, .done m'') ∧
      performOp cfg (.reset m'') t = .next (t, .done m'')

/-- The state after reset under any configuration has the invariant, and `State.reset` is what reset leaves under the
default one (10_state.md section 8). The defaults are decisions D2 and D3 of the spec (logs 2 and 3). -/
def Obligations.ResetStateHasTheInvariant : Prop :=
  (∀ cfg : Config, Inv cfg (State.resetWith cfg)) ∧
  (∀ (m : Memory) (s : State), inCall s = false →
    ∃ m', performOp defaultConfig (.reset m) s = .next (State.reset, .done m')) ∧
  State.reset.pc = 0xFFFC ∧ State.reset.sp = 0x0100

/-- Whatever memory held before a reset, with nothing loaded after it the first fetch, at the reset vector, reads 0x00,
and where that byte is unmapped the call ends with `UnknownOpcode(0x00, RESET_VECTOR)` and the rest of the budget, PC one
further (70_reset_and_hazards.md section 3; the spec marks the inference as its own, and the wrap and the rest of the
budget are its decisions D4 and D7, logs 4 and 6). -/
def Obligations.NothingLoadedIsUnknownOpcode : Prop :=
  ∀ (cfg : Config) (k : Nat) (m : Memory) (s : State), inCall s = false → cfg.opcodeMap.lookup 0 = none →
    ∃ t m' u, performOp cfg (.reset m) s = .next (t, .done m') ∧
      performOp cfg (.execute (k + 1) m') t =
        .next (u, .executed (.unknownOpcode 0 cfg.resetVector) k m') ∧ u.pc = cfg.resetVector + 1

/-! The whole machine -/

/-- Every step keeps the invariant: the core defined, memory in canonical form, SP as reset set it, and C, I, D, B
and V at 0 (10_state.md sections 4, 5 and 7; the spec marks the inference as its own; the memory's form is the model's,
log 16). -/
def Obligations.StepKeepsTheInvariant : Prop :=
  ∀ (cfg : Config) (s t : State), Inv cfg s → step s = .next t → Inv cfg t

/-- In every reset-reachable session, under every configuration, the core has C, I, D, B and V at 0 and SP at the
configured value, was reset, has no call running and retains no memory, and the host's memory is in canonical form
(10_state.md sections 5 and 7, 20_memory.md section 1; the spec marks the inference about the flags as its own; the
memory's form is the model's, log 16). -/
def Obligations.ReachableStatesHaveTheInvariant : Prop :=
  ∀ (cfg : Config) (h : Session), ResetReachable cfg h →
    Inv cfg h.core ∧ inCall h.core = false ∧ h.core.mem = [] ∧ h.memory.wf = true

/-- No step writes memory, SP, B or the lifecycle (20_memory.md section 3, 10_state.md sections 4 and 5; the spec
marks the inference as its own). -/
def Obligations.StepWritesNoMemory : Prop :=
  ∀ s t : State, step s = .next t → t.mem = s.mem ∧ t.sp = s.sp ∧ t.b = s.b ∧ t.lifecycle = s.lifecycle

/-- No instruction writes C, I, D, V or B but the explicit clears, and those write neither Z nor N
(10_state.md section 5). -/
def Obligations.NoFlagIsWrittenAsASideEffect : Prop :=
  ∀ (i : Instr) (s : State), ∃ t, exec i s = .next t ∧
    t.b = s.b ∧ t.c = (s.c && decide (i ≠ .clc)) ∧ t.d = (s.d && decide (i ≠ .cld)) ∧
    t.i = (s.i && decide (i ≠ .cli)) ∧ t.v = (s.v && decide (i ≠ .clv)) ∧
    (i ∈ [Instr.clc, .cld, .cli, .clv] → t.z = s.z ∧ t.n = s.n)

/-- Which instructions can change A, X and Y: LDA alone A, LDX, INX and TSX alone X, LDY and INY alone Y
(10_state.md section 2). -/
def Obligations.OnlyItsInstructionsWriteARegister : Prop :=
  ∀ (i : Instr) (s : State), ∃ t, exec i s = .next t ∧
    (t.a ≠ s.a → i.handler = .lda) ∧
    (t.x ≠ s.x → i.handler = .ldx ∨ i.handler = .inx ∨ i.handler = .tsx) ∧
    (t.y ≠ s.y → i.handler = .ldy ∨ i.handler = .iny)

/-- No flag is ever read: two states alike but for their flags step to states alike but for their flags, or are both
refused (10_state.md section 5; the spec marks the inference as its own). -/
def Obligations.FlagsAreNeverRead : Prop :=
  ∀ s s' : State, s.eraseFlags = s'.eraseFlags →
    (∀ t, step s = .next t → ∃ t', step s' = .next t' ∧ t'.eraseFlags = t.eraseFlags) ∧
    (∀ r, step s = .refused r → step s' = .refused r)

/-- No data steers the machine: two states with the same PC, memory, lifecycle and call step to states with the same
PC, memory, lifecycle and call, whatever A, X, Y, SP and the flags hold (10_state.md sections 2 to 5,
40_execute_engine.md section 5; the spec marks the inference as its own). -/
def Obligations.DataNeverSteers : Prop :=
  ∀ s s' : State, s.eraseData = s'.eraseData →
    (∀ t, step s = .next t → ∃ t', step s' = .next t' ∧ t'.eraseData = t.eraseData) ∧
    (∀ r, step s = .refused r → step s' = .refused r)

/-- The high byte of SP affects nothing, and SP is read by TSX alone, and then only its low byte. Changing SP before a
step changes nothing but SP after it: for every change that keeps the low byte, and, where the byte at PC is not mapped
to TSX, for every change (10_state.md section 4). -/
def Obligations.StackPointerHighByteIsInert : Prop :=
  ∀ (s : State) (w : Word),
    w.toNat % 256 = s.sp.toNat % 256 ∨ defaultOpcodeMap.lookup (s.mem.peek s.pc.toNat) ≠ some .tsx →
    (∀ t, step s = .next t → step (s.setSp w) = .next (t.setSp w)) ∧
    (∀ r, step s = .refused r → step (s.setSp w) = .refused r)

/-! The execute call. Memory is its input and its output (20_memory.md section 1). -/

/-- An `execute` call on a core that was reset always ends, with one outcome and a remaining budget of at most what it
was given, and hands the memory back as it was given (40_execute_engine.md section 4; the spec marks the inference as its
own, and the returned budget is its decision D7, log 6). -/
def Obligations.ExecuteAlwaysEnds : Prop :=
  ∀ (cfg : Config) (k : Nat) (m : Memory) (s : State), s.lifecycle = .defined → inCall s = false →
    ∃ t o left, performOp cfg (.execute k m) s = .next (t, .executed o left m) ∧ left ≤ k ∧ t.call = .idle

/-- The remaining budget an `execute` call returns is 0 after `Completed` and `BudgetExhausted`; after `UnknownOpcode` it
is less than was given, the opcode is an unmapped one, and PC is one past the address the outcome records
(40_execute_engine.md section 1, 60_exceptions.md section 1). What the call returns beside the outcome is decision D7 of
the spec (log 6), and that PC wraps is D4 (log 4). -/
def Obligations.NothingLeftUnlessUnknownOpcode : Prop :=
  ∀ (cfg : Config) (k left : Nat) (m m' : Memory) (s t : State) (o : ExecOutcome),
    performOp cfg (.execute k m) s = .next (t, .executed o left m') →
    (o = .completed ∨ o = .budgetExhausted → left = 0) ∧
    (∀ op addr, o = .unknownOpcode op addr → left < k ∧ cfg.opcodeMap.lookup op = none ∧ t.pc = addr + 1)

/-- A budget that ends on an instruction boundary can be split: where a call completes, a call with a larger budget
from the same state, on the same memory, is the call with the rest of it from the state left (70_reset_and_hazards.md
section 3, 40_execute_engine.md section 4; the spec marks the inference as its own). The returned budget, and that the
core keeps no result of the call, are decision D7 of the spec and the model's (log 6). -/
def Obligations.CompletedCallsCompose : Prop :=
  ∀ (cfg : Config) (j k : Nat) (m : Memory) (s t : State), CompletedRun cfg j m s t →
    performOp cfg (.execute (j + k) m) s = performOp cfg (.execute k m) t

/-- A budget of zero is valid and performs no work: the call completes, and neither a field the host can observe nor the
memory has changed (40_execute_engine.md section 2). The returned budget, and that the core keeps no result of the call,
are decision D7 of the spec and the model's (log 6). -/
def Obligations.ZeroBudgetDoesNoWork : Prop :=
  ∀ (cfg : Config) (m : Memory) (s : State), s.lifecycle = .defined → inCall s = false →
    performOp cfg (.execute 0 m) s = .next ({ s with mem := [], call := .idle }, .executed .completed 0 m)

/-- Rule R74: no outcome is sticky. What an `execute` call does is the same whatever result the call before it
returned, and it leaves no record of its own. -/
def Obligations.OutcomesAreNotSticky : Prop :=
  ∀ (cfg : Config) (k left : Nat) (m : Memory) (s t : State) (o : ExecOutcome), inCall s = false →
    performOp cfg (.execute k m) (s.setCall (.returned o left)) = performOp cfg (.execute k m) s ∧
    (∀ r, performOp cfg (.execute k m) s = .next (t, r) → t.call = .idle)

/-- Rule R63: after any reset or `execute` call the host reads all twelve fields, and reading changes nothing. -/
def Obligations.AllFieldsAreObservable : Prop :=
  ∀ (cfg : Config) (o : HostOp) (s t : State) (r : HostReply),
    (∃ m, o = .reset m) ∨ (∃ k m, o = .execute k m) →
    performOp cfg o s = .next (t, r) →
    performOp cfg .observe t = .next (t, .observed
      { pc := t.pc, sp := t.sp, a := t.a, x := t.x, y := t.y,
        c := t.c, z := t.z, i := t.i, d := t.d, b := t.b, v := t.v, n := t.n })

/-- While a call runs no host operation has a move (20_memory.md section 6). That the host keeps to its duty is
decision D16 of the spec (log 13). -/
def Obligations.NoHostMoveDuringACall : Prop :=
  ∀ (cfg : Config) (o : HostOp) (s : State) (k : Nat), s.call = .running k →
    performOp cfg o s = .refused .callInProgress

/-- The self-check never faults: inside a call a handler whose length the budget reaches consumes exactly that length
and leaves the call running, and only where the budget does not reach it does the handler end the call. Outside a call
the self-check measures nothing (40_execute_engine.md section 4, row U6 of 93_implementation_defined.md; the self-check
is the model's inference, log 18). -/
def Obligations.SelfCheckNeverFaults : Prop :=
  ∀ (i : Instr) (s : State), checkedExec i s = exec i s ∧
    ∃ t, checkedExec i s = .next t ∧
      ∀ k, s.call = .running k →
        (i.length ≤ k + 1 → t.call = .running (k + 1 - i.length)) ∧
        (k + 1 < i.length → ∃ o left, t.call = .returned o left)

/-- Single-stepping: with a budget of the next instruction's length an `execute` call runs that instruction and no
other, and completes (60_exceptions.md section 6). The PC wraps by decision D4 of the spec (log 4); the returned budget,
and that the core keeps no result of the call, are D7 and the model's (log 6). -/
def Obligations.BudgetOfOneInstructionRunsIt : Prop :=
  ∀ (m : Memory) (s : State) (i : Instr) (rest : List Byte), s.lifecycle = .defined → inCall s = false →
    decode defaultOpcodeMap (bytesAtPc (beginCall i.length m s)) = .instr i rest →
    ∃ t, exec i (afterOpcode (beginCall i.length m s)) = .next t ∧
      CompletedRun defaultConfig i.length m s t.handBack ∧
      t.pc.toNat = (s.pc.toNat + i.length) % 65536

/-- An `execute` call is the run of its steps: one step more than its budget takes the state in which the call has
begun to the state in which it has returned, and the host gets that result and the memory (40_execute_engine.md section
4). That a step is one pass of the loop and that the result stands in the state until the host takes it are the model's
(logs 6 and 9). -/
def Obligations.ExecuteIsTheRunOfItsSteps : Prop :=
  ∀ (k : Nat) (m : Memory) (s : State), s.lifecycle = .defined → inCall s = false →
    ∃ u o left, Sys2Proof.core.run (k + 1) (beginCall k m s) = .next u ∧ u.call = .returned o left ∧
      performOp defaultConfig (.execute k m) s = .next (u.handBack, .executed o left u.mem)

/-- Memory is lent to the core for one call and not retained: a reset or an `execute` call does the same whatever the
state held in its place before, on the memory it is given, and afterwards the core holds none (20_memory.md section 1,
10_state.md section 7). -/
def Obligations.MemoryIsLentForOneCall : Prop :=
  ∀ (cfg : Config) (o : HostOp) (s : State) (other : Memory), inCall s = false →
    (∃ m, o = .reset m) ∨ (∃ k m, o = .execute k m) →
    performOp cfg o (s.setMem other) = performOp cfg o s ∧
    ∀ t r, performOp cfg o s = .next (t, r) → t.mem = []

/-- The session's memory is the host's: only a reset, which clears it, and a write by the host change it; an `execute`
call, an observation and a read leave every cell as it was (20_memory.md sections 1 and 3; the spec marks the inference
about the core as its own). -/
def Obligations.OnlyTheHostAndResetChangeMemory : Prop :=
  ∀ (cfg : Config) (g h : Session) (a : HostAct) (r : HostReply), sessionAct cfg a g = .next (h, r) →
    (a = .reset → ∀ addr, h.memory.peek addr = 0) ∧
    (∀ addr v, a = .memWrite addr v → h.core = g.core ∧
      (g.memory.wf = true → ∀ other, h.memory.peek other =
        if other = addr ∧ addr < 65536 then v else g.memory.peek other)) ∧
    ((∃ k, a = .execute k) ∨ a = .observe ∨ (∃ addr, a = .memRead addr) → h.memory = g.memory)
end

