-- ==== Sys2Proof/Laws/Decode.lean ====
section
/-! SUPPORT. What a well-formed opcode map gives, what each lookup answers in terms of the map's rows, and the length of an encoding. -/

namespace Sys2Proof

/-- The parts of a well-formed opcode map: each opcode byte and each handler has at most one row, and each handler
has one. -/
theorem OpcodeMap.wellFormed_parts (m : OpcodeMap) (h : m.wellFormed = true) :
    (m.map Prod.fst).Nodup ∧ (m.map Prod.snd).Nodup ∧ ∀ hd : Handler, ∃ op, (op, hd) ∈ m := by
  simp only [OpcodeMap.wellFormed, OpcodeMap.opcodesDistinct, OpcodeMap.handlersDistinct, OpcodeMap.covers,
    Bool.and_eq_true, decide_eq_true_eq, List.all_eq_true, List.contains_eq_mem, List.mem_map] at h
  refine ⟨h.1.1.1, h.1.1.2, fun hd => ?_⟩
  obtain ⟨⟨op, hd'⟩, hm, rfl⟩ := h.1.2 hd (by cases hd <;> decide)
  exact ⟨op, hm⟩

/-- A lookup answers a row of the map. -/
theorem OpcodeMap.mem_of_lookup (m : OpcodeMap) {op : Byte} {hd : Handler} (h : m.lookup op = some hd) :
    (op, hd) ∈ m := by
  induction m with
  | nil => simp [OpcodeMap.lookup] at h
  | cons row m ih =>
    unfold OpcodeMap.lookup at h
    split at h
    · cases h; subst op; simp
    · exact List.mem_cons_of_mem _ (ih h)

/-- Where opcode bytes are distinct, a row is what looking its byte up answers. -/
theorem OpcodeMap.lookup_of_mem (m : OpcodeMap) (hd : (m.map Prod.fst).Nodup) {op : Byte} {h : Handler}
    (hm : (op, h) ∈ m) : m.lookup op = some h := by
  induction m with
  | nil => simp at hm
  | cons row m ih =>
    simp only [List.map_cons, List.nodup_cons, List.mem_map] at hd
    unfold OpcodeMap.lookup
    obtain rfl | hm := List.mem_cons.1 hm
    · simp
    · rw [if_neg fun e => hd.1 ⟨_, hm, e.symm⟩]
      exact ih hd.2 hm

/-- Where handlers are distinct, a row is what looking its handler up answers. -/
theorem OpcodeMap.opcodeOf_of_mem (m : OpcodeMap) (hd : (m.map Prod.snd).Nodup) {op : Byte} {h : Handler}
    (hm : (op, h) ∈ m) : m.opcodeOf h = some op := by
  induction m with
  | nil => simp at hm
  | cons row m ih =>
    simp only [List.map_cons, List.nodup_cons, List.mem_map] at hd
    unfold OpcodeMap.opcodeOf
    obtain rfl | hm := List.mem_cons.1 hm
    · simp
    · rw [if_neg fun e => hd.1 ⟨_, hm, e.symm⟩]
      exact ih hd.2 hm

/-- An instruction has one operand byte more than none exactly when its length is 2 (rules R52, R53). -/
theorem Instr.length_eq (i : Instr) : i.length = 1 + i.operandBytes.length := by cases i <;> rfl

/-- A handler's instruction is run by that handler. -/
@[simp] theorem Handler.instr_handler (h : Handler) (v : Byte) : (h.instr v).handler = h := by cases h <;> rfl

/-- Every instruction is well formed (rules R54, R55). -/
@[simp] theorem Instr.wellFormed_eq (i : Instr) : i.wellFormed = true := by cases i <;> rfl

end Sys2Proof
end

