-- ==== Sys2Proof/Laws/Memory.lean ====
section
/-! SUPPORT. Reading after writing, the canonical form and that every operation keeps it, and the port's two answers. -/

namespace Sys2Proof.Machine

@[simp] theorem Memory.peek_nil (addr : Nat) : Memory.peek [] addr = 0 := rfl

theorem Memory.wfFrom_cons_iff (lo : Nat) (cell : Host.Cell) (m : Memory) :
    Memory.wfFrom lo (cell :: m) = true ↔
      (lo ≤ cell.1 ∧ cell.1 < 65536 ∧ cell.2 ≠ 0) ∧ Memory.wfFrom (cell.1 + 1) m = true := by
  simp [Memory.wfFrom, and_assoc]

/-- A canonical form above a bound is one above any lower bound. -/
theorem Memory.wfFrom_mono {lo lo' : Nat} (m : Memory) (hle : lo' ≤ lo) (h : Memory.wfFrom lo m = true) :
    Memory.wfFrom lo' m = true := by
  cases m with
  | nil => rfl
  | cons cell m =>
    rw [Memory.wfFrom_cons_iff] at h ⊢
    exact ⟨⟨hle.trans h.1.1, h.1.2⟩, h.2⟩

/-- Below its bound a canonical memory lists nothing. -/
theorem Memory.peek_below {lo : Nat} (m : Memory) (h : Memory.wfFrom lo m = true) {addr : Nat} (hlt : addr < lo) :
    m.peek addr = 0 := by
  induction m generalizing lo with
  | nil => rfl
  | cons cell m ih =>
    rw [Memory.wfFrom_cons_iff] at h
    have hne : addr ≠ cell.1 := by omega
    simpa [Memory.peek, hne] using ih h.2 (by omega)

/-- No cell of a canonical memory lies outside the address space. -/
theorem Memory.peek_outside (m : Memory) (h : m.wf = true) {addr : Nat} (hge : 65536 ≤ addr) : m.peek addr = 0 := by
  unfold Memory.wf at h
  generalize 0 = lo at h
  induction m generalizing lo with
  | nil => rfl
  | cons cell m ih =>
    rw [Memory.wfFrom_cons_iff] at h
    have hne : addr ≠ cell.1 := by omega
    simpa [Memory.peek, hne] using ih _ h.2

theorem Memory.wfFrom_consCell {lo addr : Nat} (v : Byte) (m : Memory) (hlo : lo ≤ addr) (hlt : addr < 65536)
    (h : Memory.wfFrom (addr + 1) m = true) : Memory.wfFrom lo (Memory.cons addr v m) = true := by
  unfold Memory.cons
  split
  · exact Memory.wfFrom_mono m (by omega) h
  · exact (Memory.wfFrom_cons_iff ..).2 ⟨⟨hlo, hlt, by assumption⟩, h⟩

theorem Memory.wfFrom_poke {lo : Nat} (m : Memory) (addr : Nat) (v : Byte) (hlo : lo ≤ addr) (hlt : addr < 65536)
    (h : Memory.wfFrom lo m = true) : Memory.wfFrom lo (m.poke addr v) = true := by
  induction m generalizing lo with
  | nil => exact Memory.wfFrom_consCell v [] hlo hlt rfl
  | cons cell m ih =>
    have hc := (Memory.wfFrom_cons_iff ..).1 h
    unfold Memory.poke
    split
    · exact Memory.wfFrom_consCell v _ hlo hlt ((Memory.wfFrom_cons_iff ..).2 ⟨⟨by omega, hc.1.2⟩, hc.2⟩)
    · split
      · subst addr
        exact Memory.wfFrom_consCell v m hlo hlt hc.2
      · exact (Memory.wfFrom_cons_iff ..).2 ⟨hc.1, ih (by omega) hc.2⟩

/-- A write inside the address space keeps the canonical form. -/
theorem Memory.wf_poke (m : Memory) (addr : Nat) (v : Byte) (hlt : addr < 65536) (h : m.wf = true) :
    (m.poke addr v).wf = true := Memory.wfFrom_poke m addr v (Nat.zero_le _) hlt h

/-- Clearing leaves the canonical form. -/
@[simp] theorem Memory.wf_clear (m : Memory) : Memory.wf (memClear m) = true := rfl

theorem Memory.peek_consCell_same {addr : Nat} (v : Byte) (m : Memory) (h : Memory.wfFrom (addr + 1) m = true) :
    (Memory.cons addr v m).peek addr = v := by
  unfold Memory.cons
  split
  · rw [Memory.peek_below m h (Nat.lt_succ_self _)]; simp [*]
  · simp [Memory.peek]

theorem Memory.peek_consCell_other {addr other : Nat} (v : Byte) (m : Memory) (hne : other ≠ addr) :
    (Memory.cons addr v m).peek other = m.peek other := by
  unfold Memory.cons
  split <;> simp [Memory.peek, hne]

/-- A cell written reads as written; every other cell reads as before. One lemma for both, by one induction. -/
theorem Memory.peek_poke_from {lo : Nat} (m : Memory) (addr other : Nat) (v : Byte)
    (h : Memory.wfFrom lo m = true) :
    (m.poke addr v).peek other = if other = addr then v else m.peek other := by
  induction m generalizing lo with
  | nil =>
    unfold Memory.poke
    split
    · subst other; exact Memory.peek_consCell_same v [] rfl
    · exact Memory.peek_consCell_other v [] (by assumption)
  | cons cell m ih =>
    have hc := (Memory.wfFrom_cons_iff ..).1 h
    unfold Memory.poke
    by_cases hlt : addr < cell.1
    · rw [if_pos hlt]
      split
      · subst other
        exact Memory.peek_consCell_same v _ ((Memory.wfFrom_cons_iff ..).2 ⟨⟨hlt, hc.1.2⟩, hc.2⟩)
      · exact Memory.peek_consCell_other v _ (by assumption)
    · rw [if_neg hlt]
      by_cases heq : addr = cell.1
      · rw [if_pos heq]
        split
        · subst other heq; exact Memory.peek_consCell_same v m hc.2
        · rename_i hne
          rw [Memory.peek_consCell_other v m hne]
          simp [Memory.peek, show other ≠ cell.1 from heq ▸ hne]
      · rw [if_neg heq]
        by_cases ho : other = cell.1
        · have hne : other ≠ addr := fun e => heq (e ▸ ho)
          simp [Memory.peek, ho, show cell.1 ≠ addr from ho ▸ hne]
        · simpa [Memory.peek, ho] using ih hc.2

/-- A cell written reads as written; every other cell reads as before. -/
theorem Memory.peek_poke (m : Memory) (addr other : Nat) (v : Byte) (h : m.wf = true) :
    (m.poke addr v).peek other = if other = addr then v else m.peek other := Memory.peek_poke_from m addr other v h

/-! The port -/

/-- Inside the address space a read answers the cell (rule R33). -/
theorem memRead_inside (m : Memory) {addr : Nat} (h : addr < 65536) : memRead m addr = .ok (m.peek addr) := by
  simp [memRead, Nat.not_le.2 h]

/-- Outside it a read raises `OutOfRange` (rule R33). -/
theorem memRead_outside (m : Memory) {addr : Nat} (h : 65536 ≤ addr) : memRead m addr = .error .outOfRange := by
  simp [memRead, h]

/-- Inside the address space a write answers the memory with that cell set (rule R34). -/
theorem memWrite_inside (m : Memory) {addr : Nat} (v : Byte) (h : addr < 65536) :
    memWrite m addr v = .ok (m.poke addr v) := by
  simp [memWrite, Nat.not_le.2 h]

/-- Outside it a write raises `OutOfRange` (rule R34). -/
theorem memWrite_outside (m : Memory) {addr : Nat} (v : Byte) (h : 65536 ≤ addr) :
    memWrite m addr v = .error .outOfRange := by
  simp [memWrite, h]

/-- A 16-bit address is inside the address space, so no core access raises `OutOfRange` (rule R39). -/
@[simp] theorem memRead_word (m : Memory) (w : Word) : memRead m w.toNat = .ok (m.peek w.toNat) :=
  memRead_inside m w.isLt

end Sys2Proof.Machine
end

