-- ==== Sys2Proof/Laws/State.lean ====
section
/-! SUPPORT. One lemma per field per register, flag, memory and call update, each true by unfolding, so that no proof unfolds a record update. -/

namespace Sys2Proof.Machine

/-! `State.setPc` -/

@[simp] theorem State.setPc_pc (s : State) (w : Word) : (s.setPc w).pc = w := rfl
@[simp] theorem State.setPc_sp (s : State) (w : Word) : (s.setPc w).sp = s.sp := rfl
@[simp] theorem State.setPc_a (s : State) (w : Word) : (s.setPc w).a = s.a := rfl
@[simp] theorem State.setPc_x (s : State) (w : Word) : (s.setPc w).x = s.x := rfl
@[simp] theorem State.setPc_y (s : State) (w : Word) : (s.setPc w).y = s.y := rfl
@[simp] theorem State.setPc_c (s : State) (w : Word) : (s.setPc w).c = s.c := rfl
@[simp] theorem State.setPc_z (s : State) (w : Word) : (s.setPc w).z = s.z := rfl
@[simp] theorem State.setPc_i (s : State) (w : Word) : (s.setPc w).i = s.i := rfl
@[simp] theorem State.setPc_d (s : State) (w : Word) : (s.setPc w).d = s.d := rfl
@[simp] theorem State.setPc_b (s : State) (w : Word) : (s.setPc w).b = s.b := rfl
@[simp] theorem State.setPc_v (s : State) (w : Word) : (s.setPc w).v = s.v := rfl
@[simp] theorem State.setPc_n (s : State) (w : Word) : (s.setPc w).n = s.n := rfl
@[simp] theorem State.setPc_lifecycle (s : State) (w : Word) : (s.setPc w).lifecycle = s.lifecycle := rfl
@[simp] theorem State.setPc_mem (s : State) (w : Word) : (s.setPc w).mem = s.mem := rfl
@[simp] theorem State.setPc_call (s : State) (w : Word) : (s.setPc w).call = s.call := rfl
@[simp] theorem State.setPc_budget (s : State) (w : Word) : (s.setPc w).budget = s.budget := rfl

/-! `State.setSp` -/

@[simp] theorem State.setSp_pc (s : State) (w : Word) : (s.setSp w).pc = s.pc := rfl
@[simp] theorem State.setSp_sp (s : State) (w : Word) : (s.setSp w).sp = w := rfl
@[simp] theorem State.setSp_a (s : State) (w : Word) : (s.setSp w).a = s.a := rfl
@[simp] theorem State.setSp_x (s : State) (w : Word) : (s.setSp w).x = s.x := rfl
@[simp] theorem State.setSp_y (s : State) (w : Word) : (s.setSp w).y = s.y := rfl
@[simp] theorem State.setSp_c (s : State) (w : Word) : (s.setSp w).c = s.c := rfl
@[simp] theorem State.setSp_z (s : State) (w : Word) : (s.setSp w).z = s.z := rfl
@[simp] theorem State.setSp_i (s : State) (w : Word) : (s.setSp w).i = s.i := rfl
@[simp] theorem State.setSp_d (s : State) (w : Word) : (s.setSp w).d = s.d := rfl
@[simp] theorem State.setSp_b (s : State) (w : Word) : (s.setSp w).b = s.b := rfl
@[simp] theorem State.setSp_v (s : State) (w : Word) : (s.setSp w).v = s.v := rfl
@[simp] theorem State.setSp_n (s : State) (w : Word) : (s.setSp w).n = s.n := rfl
@[simp] theorem State.setSp_lifecycle (s : State) (w : Word) : (s.setSp w).lifecycle = s.lifecycle := rfl
@[simp] theorem State.setSp_mem (s : State) (w : Word) : (s.setSp w).mem = s.mem := rfl
@[simp] theorem State.setSp_call (s : State) (w : Word) : (s.setSp w).call = s.call := rfl
@[simp] theorem State.setSp_budget (s : State) (w : Word) : (s.setSp w).budget = s.budget := rfl

/-! `State.setA` -/

@[simp] theorem State.setA_pc (s : State) (w : Byte) : (s.setA w).pc = s.pc := rfl
@[simp] theorem State.setA_sp (s : State) (w : Byte) : (s.setA w).sp = s.sp := rfl
@[simp] theorem State.setA_a (s : State) (w : Byte) : (s.setA w).a = w := rfl
@[simp] theorem State.setA_x (s : State) (w : Byte) : (s.setA w).x = s.x := rfl
@[simp] theorem State.setA_y (s : State) (w : Byte) : (s.setA w).y = s.y := rfl
@[simp] theorem State.setA_c (s : State) (w : Byte) : (s.setA w).c = s.c := rfl
@[simp] theorem State.setA_z (s : State) (w : Byte) : (s.setA w).z = s.z := rfl
@[simp] theorem State.setA_i (s : State) (w : Byte) : (s.setA w).i = s.i := rfl
@[simp] theorem State.setA_d (s : State) (w : Byte) : (s.setA w).d = s.d := rfl
@[simp] theorem State.setA_b (s : State) (w : Byte) : (s.setA w).b = s.b := rfl
@[simp] theorem State.setA_v (s : State) (w : Byte) : (s.setA w).v = s.v := rfl
@[simp] theorem State.setA_n (s : State) (w : Byte) : (s.setA w).n = s.n := rfl
@[simp] theorem State.setA_lifecycle (s : State) (w : Byte) : (s.setA w).lifecycle = s.lifecycle := rfl
@[simp] theorem State.setA_mem (s : State) (w : Byte) : (s.setA w).mem = s.mem := rfl
@[simp] theorem State.setA_call (s : State) (w : Byte) : (s.setA w).call = s.call := rfl
@[simp] theorem State.setA_budget (s : State) (w : Byte) : (s.setA w).budget = s.budget := rfl

/-! `State.setX` -/

@[simp] theorem State.setX_pc (s : State) (w : Byte) : (s.setX w).pc = s.pc := rfl
@[simp] theorem State.setX_sp (s : State) (w : Byte) : (s.setX w).sp = s.sp := rfl
@[simp] theorem State.setX_a (s : State) (w : Byte) : (s.setX w).a = s.a := rfl
@[simp] theorem State.setX_x (s : State) (w : Byte) : (s.setX w).x = w := rfl
@[simp] theorem State.setX_y (s : State) (w : Byte) : (s.setX w).y = s.y := rfl
@[simp] theorem State.setX_c (s : State) (w : Byte) : (s.setX w).c = s.c := rfl
@[simp] theorem State.setX_z (s : State) (w : Byte) : (s.setX w).z = s.z := rfl
@[simp] theorem State.setX_i (s : State) (w : Byte) : (s.setX w).i = s.i := rfl
@[simp] theorem State.setX_d (s : State) (w : Byte) : (s.setX w).d = s.d := rfl
@[simp] theorem State.setX_b (s : State) (w : Byte) : (s.setX w).b = s.b := rfl
@[simp] theorem State.setX_v (s : State) (w : Byte) : (s.setX w).v = s.v := rfl
@[simp] theorem State.setX_n (s : State) (w : Byte) : (s.setX w).n = s.n := rfl
@[simp] theorem State.setX_lifecycle (s : State) (w : Byte) : (s.setX w).lifecycle = s.lifecycle := rfl
@[simp] theorem State.setX_mem (s : State) (w : Byte) : (s.setX w).mem = s.mem := rfl
@[simp] theorem State.setX_call (s : State) (w : Byte) : (s.setX w).call = s.call := rfl
@[simp] theorem State.setX_budget (s : State) (w : Byte) : (s.setX w).budget = s.budget := rfl

/-! `State.setY` -/

@[simp] theorem State.setY_pc (s : State) (w : Byte) : (s.setY w).pc = s.pc := rfl
@[simp] theorem State.setY_sp (s : State) (w : Byte) : (s.setY w).sp = s.sp := rfl
@[simp] theorem State.setY_a (s : State) (w : Byte) : (s.setY w).a = s.a := rfl
@[simp] theorem State.setY_x (s : State) (w : Byte) : (s.setY w).x = s.x := rfl
@[simp] theorem State.setY_y (s : State) (w : Byte) : (s.setY w).y = w := rfl
@[simp] theorem State.setY_c (s : State) (w : Byte) : (s.setY w).c = s.c := rfl
@[simp] theorem State.setY_z (s : State) (w : Byte) : (s.setY w).z = s.z := rfl
@[simp] theorem State.setY_i (s : State) (w : Byte) : (s.setY w).i = s.i := rfl
@[simp] theorem State.setY_d (s : State) (w : Byte) : (s.setY w).d = s.d := rfl
@[simp] theorem State.setY_b (s : State) (w : Byte) : (s.setY w).b = s.b := rfl
@[simp] theorem State.setY_v (s : State) (w : Byte) : (s.setY w).v = s.v := rfl
@[simp] theorem State.setY_n (s : State) (w : Byte) : (s.setY w).n = s.n := rfl
@[simp] theorem State.setY_lifecycle (s : State) (w : Byte) : (s.setY w).lifecycle = s.lifecycle := rfl
@[simp] theorem State.setY_mem (s : State) (w : Byte) : (s.setY w).mem = s.mem := rfl
@[simp] theorem State.setY_call (s : State) (w : Byte) : (s.setY w).call = s.call := rfl
@[simp] theorem State.setY_budget (s : State) (w : Byte) : (s.setY w).budget = s.budget := rfl

/-! `State.setC` -/

@[simp] theorem State.setC_pc (s : State) (w : Bool) : (s.setC w).pc = s.pc := rfl
@[simp] theorem State.setC_sp (s : State) (w : Bool) : (s.setC w).sp = s.sp := rfl
@[simp] theorem State.setC_a (s : State) (w : Bool) : (s.setC w).a = s.a := rfl
@[simp] theorem State.setC_x (s : State) (w : Bool) : (s.setC w).x = s.x := rfl
@[simp] theorem State.setC_y (s : State) (w : Bool) : (s.setC w).y = s.y := rfl
@[simp] theorem State.setC_c (s : State) (w : Bool) : (s.setC w).c = w := rfl
@[simp] theorem State.setC_z (s : State) (w : Bool) : (s.setC w).z = s.z := rfl
@[simp] theorem State.setC_i (s : State) (w : Bool) : (s.setC w).i = s.i := rfl
@[simp] theorem State.setC_d (s : State) (w : Bool) : (s.setC w).d = s.d := rfl
@[simp] theorem State.setC_b (s : State) (w : Bool) : (s.setC w).b = s.b := rfl
@[simp] theorem State.setC_v (s : State) (w : Bool) : (s.setC w).v = s.v := rfl
@[simp] theorem State.setC_n (s : State) (w : Bool) : (s.setC w).n = s.n := rfl
@[simp] theorem State.setC_lifecycle (s : State) (w : Bool) : (s.setC w).lifecycle = s.lifecycle := rfl
@[simp] theorem State.setC_mem (s : State) (w : Bool) : (s.setC w).mem = s.mem := rfl
@[simp] theorem State.setC_call (s : State) (w : Bool) : (s.setC w).call = s.call := rfl
@[simp] theorem State.setC_budget (s : State) (w : Bool) : (s.setC w).budget = s.budget := rfl

/-! `State.setZ` -/

@[simp] theorem State.setZ_pc (s : State) (w : Bool) : (s.setZ w).pc = s.pc := rfl
@[simp] theorem State.setZ_sp (s : State) (w : Bool) : (s.setZ w).sp = s.sp := rfl
@[simp] theorem State.setZ_a (s : State) (w : Bool) : (s.setZ w).a = s.a := rfl
@[simp] theorem State.setZ_x (s : State) (w : Bool) : (s.setZ w).x = s.x := rfl
@[simp] theorem State.setZ_y (s : State) (w : Bool) : (s.setZ w).y = s.y := rfl
@[simp] theorem State.setZ_c (s : State) (w : Bool) : (s.setZ w).c = s.c := rfl
@[simp] theorem State.setZ_z (s : State) (w : Bool) : (s.setZ w).z = w := rfl
@[simp] theorem State.setZ_i (s : State) (w : Bool) : (s.setZ w).i = s.i := rfl
@[simp] theorem State.setZ_d (s : State) (w : Bool) : (s.setZ w).d = s.d := rfl
@[simp] theorem State.setZ_b (s : State) (w : Bool) : (s.setZ w).b = s.b := rfl
@[simp] theorem State.setZ_v (s : State) (w : Bool) : (s.setZ w).v = s.v := rfl
@[simp] theorem State.setZ_n (s : State) (w : Bool) : (s.setZ w).n = s.n := rfl
@[simp] theorem State.setZ_lifecycle (s : State) (w : Bool) : (s.setZ w).lifecycle = s.lifecycle := rfl
@[simp] theorem State.setZ_mem (s : State) (w : Bool) : (s.setZ w).mem = s.mem := rfl
@[simp] theorem State.setZ_call (s : State) (w : Bool) : (s.setZ w).call = s.call := rfl
@[simp] theorem State.setZ_budget (s : State) (w : Bool) : (s.setZ w).budget = s.budget := rfl

/-! `State.setI` -/

@[simp] theorem State.setI_pc (s : State) (w : Bool) : (s.setI w).pc = s.pc := rfl
@[simp] theorem State.setI_sp (s : State) (w : Bool) : (s.setI w).sp = s.sp := rfl
@[simp] theorem State.setI_a (s : State) (w : Bool) : (s.setI w).a = s.a := rfl
@[simp] theorem State.setI_x (s : State) (w : Bool) : (s.setI w).x = s.x := rfl
@[simp] theorem State.setI_y (s : State) (w : Bool) : (s.setI w).y = s.y := rfl
@[simp] theorem State.setI_c (s : State) (w : Bool) : (s.setI w).c = s.c := rfl
@[simp] theorem State.setI_z (s : State) (w : Bool) : (s.setI w).z = s.z := rfl
@[simp] theorem State.setI_i (s : State) (w : Bool) : (s.setI w).i = w := rfl
@[simp] theorem State.setI_d (s : State) (w : Bool) : (s.setI w).d = s.d := rfl
@[simp] theorem State.setI_b (s : State) (w : Bool) : (s.setI w).b = s.b := rfl
@[simp] theorem State.setI_v (s : State) (w : Bool) : (s.setI w).v = s.v := rfl
@[simp] theorem State.setI_n (s : State) (w : Bool) : (s.setI w).n = s.n := rfl
@[simp] theorem State.setI_lifecycle (s : State) (w : Bool) : (s.setI w).lifecycle = s.lifecycle := rfl
@[simp] theorem State.setI_mem (s : State) (w : Bool) : (s.setI w).mem = s.mem := rfl
@[simp] theorem State.setI_call (s : State) (w : Bool) : (s.setI w).call = s.call := rfl
@[simp] theorem State.setI_budget (s : State) (w : Bool) : (s.setI w).budget = s.budget := rfl

/-! `State.setD` -/

@[simp] theorem State.setD_pc (s : State) (w : Bool) : (s.setD w).pc = s.pc := rfl
@[simp] theorem State.setD_sp (s : State) (w : Bool) : (s.setD w).sp = s.sp := rfl
@[simp] theorem State.setD_a (s : State) (w : Bool) : (s.setD w).a = s.a := rfl
@[simp] theorem State.setD_x (s : State) (w : Bool) : (s.setD w).x = s.x := rfl
@[simp] theorem State.setD_y (s : State) (w : Bool) : (s.setD w).y = s.y := rfl
@[simp] theorem State.setD_c (s : State) (w : Bool) : (s.setD w).c = s.c := rfl
@[simp] theorem State.setD_z (s : State) (w : Bool) : (s.setD w).z = s.z := rfl
@[simp] theorem State.setD_i (s : State) (w : Bool) : (s.setD w).i = s.i := rfl
@[simp] theorem State.setD_d (s : State) (w : Bool) : (s.setD w).d = w := rfl
@[simp] theorem State.setD_b (s : State) (w : Bool) : (s.setD w).b = s.b := rfl
@[simp] theorem State.setD_v (s : State) (w : Bool) : (s.setD w).v = s.v := rfl
@[simp] theorem State.setD_n (s : State) (w : Bool) : (s.setD w).n = s.n := rfl
@[simp] theorem State.setD_lifecycle (s : State) (w : Bool) : (s.setD w).lifecycle = s.lifecycle := rfl
@[simp] theorem State.setD_mem (s : State) (w : Bool) : (s.setD w).mem = s.mem := rfl
@[simp] theorem State.setD_call (s : State) (w : Bool) : (s.setD w).call = s.call := rfl
@[simp] theorem State.setD_budget (s : State) (w : Bool) : (s.setD w).budget = s.budget := rfl

/-! `State.setB` -/

@[simp] theorem State.setB_pc (s : State) (w : Bool) : (s.setB w).pc = s.pc := rfl
@[simp] theorem State.setB_sp (s : State) (w : Bool) : (s.setB w).sp = s.sp := rfl
@[simp] theorem State.setB_a (s : State) (w : Bool) : (s.setB w).a = s.a := rfl
@[simp] theorem State.setB_x (s : State) (w : Bool) : (s.setB w).x = s.x := rfl
@[simp] theorem State.setB_y (s : State) (w : Bool) : (s.setB w).y = s.y := rfl
@[simp] theorem State.setB_c (s : State) (w : Bool) : (s.setB w).c = s.c := rfl
@[simp] theorem State.setB_z (s : State) (w : Bool) : (s.setB w).z = s.z := rfl
@[simp] theorem State.setB_i (s : State) (w : Bool) : (s.setB w).i = s.i := rfl
@[simp] theorem State.setB_d (s : State) (w : Bool) : (s.setB w).d = s.d := rfl
@[simp] theorem State.setB_b (s : State) (w : Bool) : (s.setB w).b = w := rfl
@[simp] theorem State.setB_v (s : State) (w : Bool) : (s.setB w).v = s.v := rfl
@[simp] theorem State.setB_n (s : State) (w : Bool) : (s.setB w).n = s.n := rfl
@[simp] theorem State.setB_lifecycle (s : State) (w : Bool) : (s.setB w).lifecycle = s.lifecycle := rfl
@[simp] theorem State.setB_mem (s : State) (w : Bool) : (s.setB w).mem = s.mem := rfl
@[simp] theorem State.setB_call (s : State) (w : Bool) : (s.setB w).call = s.call := rfl
@[simp] theorem State.setB_budget (s : State) (w : Bool) : (s.setB w).budget = s.budget := rfl

/-! `State.setV` -/

@[simp] theorem State.setV_pc (s : State) (w : Bool) : (s.setV w).pc = s.pc := rfl
@[simp] theorem State.setV_sp (s : State) (w : Bool) : (s.setV w).sp = s.sp := rfl
@[simp] theorem State.setV_a (s : State) (w : Bool) : (s.setV w).a = s.a := rfl
@[simp] theorem State.setV_x (s : State) (w : Bool) : (s.setV w).x = s.x := rfl
@[simp] theorem State.setV_y (s : State) (w : Bool) : (s.setV w).y = s.y := rfl
@[simp] theorem State.setV_c (s : State) (w : Bool) : (s.setV w).c = s.c := rfl
@[simp] theorem State.setV_z (s : State) (w : Bool) : (s.setV w).z = s.z := rfl
@[simp] theorem State.setV_i (s : State) (w : Bool) : (s.setV w).i = s.i := rfl
@[simp] theorem State.setV_d (s : State) (w : Bool) : (s.setV w).d = s.d := rfl
@[simp] theorem State.setV_b (s : State) (w : Bool) : (s.setV w).b = s.b := rfl
@[simp] theorem State.setV_v (s : State) (w : Bool) : (s.setV w).v = w := rfl
@[simp] theorem State.setV_n (s : State) (w : Bool) : (s.setV w).n = s.n := rfl
@[simp] theorem State.setV_lifecycle (s : State) (w : Bool) : (s.setV w).lifecycle = s.lifecycle := rfl
@[simp] theorem State.setV_mem (s : State) (w : Bool) : (s.setV w).mem = s.mem := rfl
@[simp] theorem State.setV_call (s : State) (w : Bool) : (s.setV w).call = s.call := rfl
@[simp] theorem State.setV_budget (s : State) (w : Bool) : (s.setV w).budget = s.budget := rfl

/-! `State.setN` -/

@[simp] theorem State.setN_pc (s : State) (w : Bool) : (s.setN w).pc = s.pc := rfl
@[simp] theorem State.setN_sp (s : State) (w : Bool) : (s.setN w).sp = s.sp := rfl
@[simp] theorem State.setN_a (s : State) (w : Bool) : (s.setN w).a = s.a := rfl
@[simp] theorem State.setN_x (s : State) (w : Bool) : (s.setN w).x = s.x := rfl
@[simp] theorem State.setN_y (s : State) (w : Bool) : (s.setN w).y = s.y := rfl
@[simp] theorem State.setN_c (s : State) (w : Bool) : (s.setN w).c = s.c := rfl
@[simp] theorem State.setN_z (s : State) (w : Bool) : (s.setN w).z = s.z := rfl
@[simp] theorem State.setN_i (s : State) (w : Bool) : (s.setN w).i = s.i := rfl
@[simp] theorem State.setN_d (s : State) (w : Bool) : (s.setN w).d = s.d := rfl
@[simp] theorem State.setN_b (s : State) (w : Bool) : (s.setN w).b = s.b := rfl
@[simp] theorem State.setN_v (s : State) (w : Bool) : (s.setN w).v = s.v := rfl
@[simp] theorem State.setN_n (s : State) (w : Bool) : (s.setN w).n = w := rfl
@[simp] theorem State.setN_lifecycle (s : State) (w : Bool) : (s.setN w).lifecycle = s.lifecycle := rfl
@[simp] theorem State.setN_mem (s : State) (w : Bool) : (s.setN w).mem = s.mem := rfl
@[simp] theorem State.setN_call (s : State) (w : Bool) : (s.setN w).call = s.call := rfl
@[simp] theorem State.setN_budget (s : State) (w : Bool) : (s.setN w).budget = s.budget := rfl

/-! `State.setLifecycle` -/

@[simp] theorem State.setLifecycle_pc (s : State) (w : Lifecycle) : (s.setLifecycle w).pc = s.pc := rfl
@[simp] theorem State.setLifecycle_sp (s : State) (w : Lifecycle) : (s.setLifecycle w).sp = s.sp := rfl
@[simp] theorem State.setLifecycle_a (s : State) (w : Lifecycle) : (s.setLifecycle w).a = s.a := rfl
@[simp] theorem State.setLifecycle_x (s : State) (w : Lifecycle) : (s.setLifecycle w).x = s.x := rfl
@[simp] theorem State.setLifecycle_y (s : State) (w : Lifecycle) : (s.setLifecycle w).y = s.y := rfl
@[simp] theorem State.setLifecycle_c (s : State) (w : Lifecycle) : (s.setLifecycle w).c = s.c := rfl
@[simp] theorem State.setLifecycle_z (s : State) (w : Lifecycle) : (s.setLifecycle w).z = s.z := rfl
@[simp] theorem State.setLifecycle_i (s : State) (w : Lifecycle) : (s.setLifecycle w).i = s.i := rfl
@[simp] theorem State.setLifecycle_d (s : State) (w : Lifecycle) : (s.setLifecycle w).d = s.d := rfl
@[simp] theorem State.setLifecycle_b (s : State) (w : Lifecycle) : (s.setLifecycle w).b = s.b := rfl
@[simp] theorem State.setLifecycle_v (s : State) (w : Lifecycle) : (s.setLifecycle w).v = s.v := rfl
@[simp] theorem State.setLifecycle_n (s : State) (w : Lifecycle) : (s.setLifecycle w).n = s.n := rfl
@[simp] theorem State.setLifecycle_lifecycle (s : State) (w : Lifecycle) : (s.setLifecycle w).lifecycle = w := rfl
@[simp] theorem State.setLifecycle_mem (s : State) (w : Lifecycle) : (s.setLifecycle w).mem = s.mem := rfl
@[simp] theorem State.setLifecycle_call (s : State) (w : Lifecycle) : (s.setLifecycle w).call = s.call := rfl
@[simp] theorem State.setLifecycle_budget (s : State) (w : Lifecycle) : (s.setLifecycle w).budget = s.budget := rfl

/-! `State.setMem` -/

@[simp] theorem State.setMem_pc (s : State) (w : Memory) : (s.setMem w).pc = s.pc := rfl
@[simp] theorem State.setMem_sp (s : State) (w : Memory) : (s.setMem w).sp = s.sp := rfl
@[simp] theorem State.setMem_a (s : State) (w : Memory) : (s.setMem w).a = s.a := rfl
@[simp] theorem State.setMem_x (s : State) (w : Memory) : (s.setMem w).x = s.x := rfl
@[simp] theorem State.setMem_y (s : State) (w : Memory) : (s.setMem w).y = s.y := rfl
@[simp] theorem State.setMem_c (s : State) (w : Memory) : (s.setMem w).c = s.c := rfl
@[simp] theorem State.setMem_z (s : State) (w : Memory) : (s.setMem w).z = s.z := rfl
@[simp] theorem State.setMem_i (s : State) (w : Memory) : (s.setMem w).i = s.i := rfl
@[simp] theorem State.setMem_d (s : State) (w : Memory) : (s.setMem w).d = s.d := rfl
@[simp] theorem State.setMem_b (s : State) (w : Memory) : (s.setMem w).b = s.b := rfl
@[simp] theorem State.setMem_v (s : State) (w : Memory) : (s.setMem w).v = s.v := rfl
@[simp] theorem State.setMem_n (s : State) (w : Memory) : (s.setMem w).n = s.n := rfl
@[simp] theorem State.setMem_lifecycle (s : State) (w : Memory) : (s.setMem w).lifecycle = s.lifecycle := rfl
@[simp] theorem State.setMem_mem (s : State) (w : Memory) : (s.setMem w).mem = w := rfl
@[simp] theorem State.setMem_call (s : State) (w : Memory) : (s.setMem w).call = s.call := rfl
@[simp] theorem State.setMem_budget (s : State) (w : Memory) : (s.setMem w).budget = s.budget := rfl

/-! `State.setCall` -/

@[simp] theorem State.setCall_pc (s : State) (w : Call) : (s.setCall w).pc = s.pc := rfl
@[simp] theorem State.setCall_sp (s : State) (w : Call) : (s.setCall w).sp = s.sp := rfl
@[simp] theorem State.setCall_a (s : State) (w : Call) : (s.setCall w).a = s.a := rfl
@[simp] theorem State.setCall_x (s : State) (w : Call) : (s.setCall w).x = s.x := rfl
@[simp] theorem State.setCall_y (s : State) (w : Call) : (s.setCall w).y = s.y := rfl
@[simp] theorem State.setCall_c (s : State) (w : Call) : (s.setCall w).c = s.c := rfl
@[simp] theorem State.setCall_z (s : State) (w : Call) : (s.setCall w).z = s.z := rfl
@[simp] theorem State.setCall_i (s : State) (w : Call) : (s.setCall w).i = s.i := rfl
@[simp] theorem State.setCall_d (s : State) (w : Call) : (s.setCall w).d = s.d := rfl
@[simp] theorem State.setCall_b (s : State) (w : Call) : (s.setCall w).b = s.b := rfl
@[simp] theorem State.setCall_v (s : State) (w : Call) : (s.setCall w).v = s.v := rfl
@[simp] theorem State.setCall_n (s : State) (w : Call) : (s.setCall w).n = s.n := rfl
@[simp] theorem State.setCall_lifecycle (s : State) (w : Call) : (s.setCall w).lifecycle = s.lifecycle := rfl
@[simp] theorem State.setCall_mem (s : State) (w : Call) : (s.setCall w).mem = s.mem := rfl
@[simp] theorem State.setCall_call (s : State) (w : Call) : (s.setCall w).call = w := rfl
@[simp] theorem State.setCall_budget (s : State) (w : Call) : (s.setCall w).budget = w.budget := rfl

end Sys2Proof.Machine
end

