-- ==== Sys2Proof/Laws/Ops.lean ====
section
/-! SUPPORT. What each shared update of the state does to each field: the PC's advance, spending a unit, ending and beginning a call, handing memory back, and the flag engine. -/

namespace Sys2Proof.Machine

@[simp] theorem Call.budget_running (k : Nat) : (Call.running k).budget = k := rfl
@[simp] theorem Call.budget_idle : Call.idle.budget = 0 := rfl
@[simp] theorem Call.budget_returned (o : ExecOutcome) (k : Nat) : (Call.returned o k).budget = 0 := rfl

/-- A budget above 0 means that a call runs (rule R28). -/
theorem State.call_of_budget_pos (s : State) (h : 0 < s.budget) : s.call = .running s.budget := by
  unfold State.budget at *
  cases hc : s.call <;> simp [hc] at h ⊢

/-- The budget of a running call is the number it runs with. -/
theorem State.budget_of_running (s : State) (k : Nat) (h : s.call = .running k) : s.budget = k := by
  simp [State.budget, h]

/-! `State.advance` -/

@[simp] theorem State.advance_pc (s : State) : s.advance.pc = s.pc + 1 := rfl
@[simp] theorem State.advance_sp (s : State) : s.advance.sp = s.sp := rfl
@[simp] theorem State.advance_a (s : State) : s.advance.a = s.a := rfl
@[simp] theorem State.advance_x (s : State) : s.advance.x = s.x := rfl
@[simp] theorem State.advance_y (s : State) : s.advance.y = s.y := rfl
@[simp] theorem State.advance_c (s : State) : s.advance.c = s.c := rfl
@[simp] theorem State.advance_z (s : State) : s.advance.z = s.z := rfl
@[simp] theorem State.advance_i (s : State) : s.advance.i = s.i := rfl
@[simp] theorem State.advance_d (s : State) : s.advance.d = s.d := rfl
@[simp] theorem State.advance_b (s : State) : s.advance.b = s.b := rfl
@[simp] theorem State.advance_v (s : State) : s.advance.v = s.v := rfl
@[simp] theorem State.advance_n (s : State) : s.advance.n = s.n := rfl
@[simp] theorem State.advance_lifecycle (s : State) : s.advance.lifecycle = s.lifecycle := rfl
@[simp] theorem State.advance_mem (s : State) : s.advance.mem = s.mem := rfl
@[simp] theorem State.advance_call (s : State) : s.advance.call = s.call := rfl
@[simp] theorem State.advance_budget (s : State) : s.advance.budget = s.budget := rfl

/-! `State.spend` -/

@[simp] theorem State.spend_pc (s : State) : s.spend.pc = s.pc := rfl
@[simp] theorem State.spend_sp (s : State) : s.spend.sp = s.sp := rfl
@[simp] theorem State.spend_a (s : State) : s.spend.a = s.a := rfl
@[simp] theorem State.spend_x (s : State) : s.spend.x = s.x := rfl
@[simp] theorem State.spend_y (s : State) : s.spend.y = s.y := rfl
@[simp] theorem State.spend_c (s : State) : s.spend.c = s.c := rfl
@[simp] theorem State.spend_z (s : State) : s.spend.z = s.z := rfl
@[simp] theorem State.spend_i (s : State) : s.spend.i = s.i := rfl
@[simp] theorem State.spend_d (s : State) : s.spend.d = s.d := rfl
@[simp] theorem State.spend_b (s : State) : s.spend.b = s.b := rfl
@[simp] theorem State.spend_v (s : State) : s.spend.v = s.v := rfl
@[simp] theorem State.spend_n (s : State) : s.spend.n = s.n := rfl
@[simp] theorem State.spend_lifecycle (s : State) : s.spend.lifecycle = s.lifecycle := rfl
@[simp] theorem State.spend_mem (s : State) : s.spend.mem = s.mem := rfl
@[simp] theorem State.spend_call (s : State) : s.spend.call = .running (s.budget - 1) := rfl
@[simp] theorem State.spend_budget (s : State) : s.spend.budget = s.budget - 1 := rfl

/-! `afterOpcode` -/

@[simp] theorem afterOpcode_pc (s : State) : (afterOpcode s).pc = s.pc + 1 := rfl
@[simp] theorem afterOpcode_sp (s : State) : (afterOpcode s).sp = s.sp := rfl
@[simp] theorem afterOpcode_a (s : State) : (afterOpcode s).a = s.a := rfl
@[simp] theorem afterOpcode_x (s : State) : (afterOpcode s).x = s.x := rfl
@[simp] theorem afterOpcode_y (s : State) : (afterOpcode s).y = s.y := rfl
@[simp] theorem afterOpcode_c (s : State) : (afterOpcode s).c = s.c := rfl
@[simp] theorem afterOpcode_z (s : State) : (afterOpcode s).z = s.z := rfl
@[simp] theorem afterOpcode_i (s : State) : (afterOpcode s).i = s.i := rfl
@[simp] theorem afterOpcode_d (s : State) : (afterOpcode s).d = s.d := rfl
@[simp] theorem afterOpcode_b (s : State) : (afterOpcode s).b = s.b := rfl
@[simp] theorem afterOpcode_v (s : State) : (afterOpcode s).v = s.v := rfl
@[simp] theorem afterOpcode_n (s : State) : (afterOpcode s).n = s.n := rfl
@[simp] theorem afterOpcode_lifecycle (s : State) : (afterOpcode s).lifecycle = s.lifecycle := rfl
@[simp] theorem afterOpcode_mem (s : State) : (afterOpcode s).mem = s.mem := rfl
@[simp] theorem afterOpcode_call (s : State) : (afterOpcode s).call = .running (s.budget - 1) := rfl
@[simp] theorem afterOpcode_budget (s : State) : (afterOpcode s).budget = s.budget - 1 := rfl

/-! `endCall` -/

@[simp] theorem endCall_pc (o : ExecOutcome) (s : State) : (endCall o s).pc = s.pc := rfl
@[simp] theorem endCall_sp (o : ExecOutcome) (s : State) : (endCall o s).sp = s.sp := rfl
@[simp] theorem endCall_a (o : ExecOutcome) (s : State) : (endCall o s).a = s.a := rfl
@[simp] theorem endCall_x (o : ExecOutcome) (s : State) : (endCall o s).x = s.x := rfl
@[simp] theorem endCall_y (o : ExecOutcome) (s : State) : (endCall o s).y = s.y := rfl
@[simp] theorem endCall_c (o : ExecOutcome) (s : State) : (endCall o s).c = s.c := rfl
@[simp] theorem endCall_z (o : ExecOutcome) (s : State) : (endCall o s).z = s.z := rfl
@[simp] theorem endCall_i (o : ExecOutcome) (s : State) : (endCall o s).i = s.i := rfl
@[simp] theorem endCall_d (o : ExecOutcome) (s : State) : (endCall o s).d = s.d := rfl
@[simp] theorem endCall_b (o : ExecOutcome) (s : State) : (endCall o s).b = s.b := rfl
@[simp] theorem endCall_v (o : ExecOutcome) (s : State) : (endCall o s).v = s.v := rfl
@[simp] theorem endCall_n (o : ExecOutcome) (s : State) : (endCall o s).n = s.n := rfl
@[simp] theorem endCall_lifecycle (o : ExecOutcome) (s : State) : (endCall o s).lifecycle = s.lifecycle := rfl
@[simp] theorem endCall_mem (o : ExecOutcome) (s : State) : (endCall o s).mem = s.mem := rfl
@[simp] theorem endCall_call (o : ExecOutcome) (s : State) : (endCall o s).call = .returned o s.budget := rfl

/-! `beginCall` -/

@[simp] theorem beginCall_pc (k : Nat) (m : Memory) (s : State) : (beginCall k m s).pc = s.pc := rfl
@[simp] theorem beginCall_sp (k : Nat) (m : Memory) (s : State) : (beginCall k m s).sp = s.sp := rfl
@[simp] theorem beginCall_a (k : Nat) (m : Memory) (s : State) : (beginCall k m s).a = s.a := rfl
@[simp] theorem beginCall_x (k : Nat) (m : Memory) (s : State) : (beginCall k m s).x = s.x := rfl
@[simp] theorem beginCall_y (k : Nat) (m : Memory) (s : State) : (beginCall k m s).y = s.y := rfl
@[simp] theorem beginCall_c (k : Nat) (m : Memory) (s : State) : (beginCall k m s).c = s.c := rfl
@[simp] theorem beginCall_z (k : Nat) (m : Memory) (s : State) : (beginCall k m s).z = s.z := rfl
@[simp] theorem beginCall_i (k : Nat) (m : Memory) (s : State) : (beginCall k m s).i = s.i := rfl
@[simp] theorem beginCall_d (k : Nat) (m : Memory) (s : State) : (beginCall k m s).d = s.d := rfl
@[simp] theorem beginCall_b (k : Nat) (m : Memory) (s : State) : (beginCall k m s).b = s.b := rfl
@[simp] theorem beginCall_v (k : Nat) (m : Memory) (s : State) : (beginCall k m s).v = s.v := rfl
@[simp] theorem beginCall_n (k : Nat) (m : Memory) (s : State) : (beginCall k m s).n = s.n := rfl
@[simp] theorem beginCall_lifecycle (k : Nat) (m : Memory) (s : State) : (beginCall k m s).lifecycle = s.lifecycle := rfl
@[simp] theorem beginCall_mem (k : Nat) (m : Memory) (s : State) : (beginCall k m s).mem = m := rfl
@[simp] theorem beginCall_call (k : Nat) (m : Memory) (s : State) : (beginCall k m s).call = .running k := rfl
@[simp] theorem beginCall_budget (k : Nat) (m : Memory) (s : State) : (beginCall k m s).budget = k := rfl

/-! `State.handBack` -/

@[simp] theorem State.handBack_pc (s : State) : s.handBack.pc = s.pc := rfl
@[simp] theorem State.handBack_sp (s : State) : s.handBack.sp = s.sp := rfl
@[simp] theorem State.handBack_a (s : State) : s.handBack.a = s.a := rfl
@[simp] theorem State.handBack_x (s : State) : s.handBack.x = s.x := rfl
@[simp] theorem State.handBack_y (s : State) : s.handBack.y = s.y := rfl
@[simp] theorem State.handBack_c (s : State) : s.handBack.c = s.c := rfl
@[simp] theorem State.handBack_z (s : State) : s.handBack.z = s.z := rfl
@[simp] theorem State.handBack_i (s : State) : s.handBack.i = s.i := rfl
@[simp] theorem State.handBack_d (s : State) : s.handBack.d = s.d := rfl
@[simp] theorem State.handBack_b (s : State) : s.handBack.b = s.b := rfl
@[simp] theorem State.handBack_v (s : State) : s.handBack.v = s.v := rfl
@[simp] theorem State.handBack_n (s : State) : s.handBack.n = s.n := rfl
@[simp] theorem State.handBack_lifecycle (s : State) : s.handBack.lifecycle = s.lifecycle := rfl
@[simp] theorem State.handBack_mem (s : State) : s.handBack.mem = [] := rfl
@[simp] theorem State.handBack_call (s : State) : s.handBack.call = .idle := rfl

/-! `setZN` -/

@[simp] theorem setZN_pc (r : Byte) (s : State) : (setZN r s).pc = s.pc := rfl
@[simp] theorem setZN_sp (r : Byte) (s : State) : (setZN r s).sp = s.sp := rfl
@[simp] theorem setZN_a (r : Byte) (s : State) : (setZN r s).a = s.a := rfl
@[simp] theorem setZN_x (r : Byte) (s : State) : (setZN r s).x = s.x := rfl
@[simp] theorem setZN_y (r : Byte) (s : State) : (setZN r s).y = s.y := rfl
@[simp] theorem setZN_c (r : Byte) (s : State) : (setZN r s).c = s.c := rfl
@[simp] theorem setZN_z (r : Byte) (s : State) : (setZN r s).z = zeroFlag r := rfl
@[simp] theorem setZN_i (r : Byte) (s : State) : (setZN r s).i = s.i := rfl
@[simp] theorem setZN_d (r : Byte) (s : State) : (setZN r s).d = s.d := rfl
@[simp] theorem setZN_b (r : Byte) (s : State) : (setZN r s).b = s.b := rfl
@[simp] theorem setZN_v (r : Byte) (s : State) : (setZN r s).v = s.v := rfl
@[simp] theorem setZN_n (r : Byte) (s : State) : (setZN r s).n = negativeFlag r := rfl
@[simp] theorem setZN_lifecycle (r : Byte) (s : State) : (setZN r s).lifecycle = s.lifecycle := rfl
@[simp] theorem setZN_mem (r : Byte) (s : State) : (setZN r s).mem = s.mem := rfl
@[simp] theorem setZN_call (r : Byte) (s : State) : (setZN r s).call = s.call := rfl
@[simp] theorem setZN_budget (r : Byte) (s : State) : (setZN r s).budget = s.budget := rfl

/-! `defineA` -/

@[simp] theorem defineA_pc (r : Byte) (s : State) : (defineA r s).pc = s.pc := rfl
@[simp] theorem defineA_sp (r : Byte) (s : State) : (defineA r s).sp = s.sp := rfl
@[simp] theorem defineA_a (r : Byte) (s : State) : (defineA r s).a = r := rfl
@[simp] theorem defineA_x (r : Byte) (s : State) : (defineA r s).x = s.x := rfl
@[simp] theorem defineA_y (r : Byte) (s : State) : (defineA r s).y = s.y := rfl
@[simp] theorem defineA_c (r : Byte) (s : State) : (defineA r s).c = s.c := rfl
@[simp] theorem defineA_z (r : Byte) (s : State) : (defineA r s).z = zeroFlag r := rfl
@[simp] theorem defineA_i (r : Byte) (s : State) : (defineA r s).i = s.i := rfl
@[simp] theorem defineA_d (r : Byte) (s : State) : (defineA r s).d = s.d := rfl
@[simp] theorem defineA_b (r : Byte) (s : State) : (defineA r s).b = s.b := rfl
@[simp] theorem defineA_v (r : Byte) (s : State) : (defineA r s).v = s.v := rfl
@[simp] theorem defineA_n (r : Byte) (s : State) : (defineA r s).n = negativeFlag r := rfl
@[simp] theorem defineA_lifecycle (r : Byte) (s : State) : (defineA r s).lifecycle = s.lifecycle := rfl
@[simp] theorem defineA_mem (r : Byte) (s : State) : (defineA r s).mem = s.mem := rfl
@[simp] theorem defineA_call (r : Byte) (s : State) : (defineA r s).call = s.call := rfl
@[simp] theorem defineA_budget (r : Byte) (s : State) : (defineA r s).budget = s.budget := rfl

/-! `defineX` -/

@[simp] theorem defineX_pc (r : Byte) (s : State) : (defineX r s).pc = s.pc := rfl
@[simp] theorem defineX_sp (r : Byte) (s : State) : (defineX r s).sp = s.sp := rfl
@[simp] theorem defineX_a (r : Byte) (s : State) : (defineX r s).a = s.a := rfl
@[simp] theorem defineX_x (r : Byte) (s : State) : (defineX r s).x = r := rfl
@[simp] theorem defineX_y (r : Byte) (s : State) : (defineX r s).y = s.y := rfl
@[simp] theorem defineX_c (r : Byte) (s : State) : (defineX r s).c = s.c := rfl
@[simp] theorem defineX_z (r : Byte) (s : State) : (defineX r s).z = zeroFlag r := rfl
@[simp] theorem defineX_i (r : Byte) (s : State) : (defineX r s).i = s.i := rfl
@[simp] theorem defineX_d (r : Byte) (s : State) : (defineX r s).d = s.d := rfl
@[simp] theorem defineX_b (r : Byte) (s : State) : (defineX r s).b = s.b := rfl
@[simp] theorem defineX_v (r : Byte) (s : State) : (defineX r s).v = s.v := rfl
@[simp] theorem defineX_n (r : Byte) (s : State) : (defineX r s).n = negativeFlag r := rfl
@[simp] theorem defineX_lifecycle (r : Byte) (s : State) : (defineX r s).lifecycle = s.lifecycle := rfl
@[simp] theorem defineX_mem (r : Byte) (s : State) : (defineX r s).mem = s.mem := rfl
@[simp] theorem defineX_call (r : Byte) (s : State) : (defineX r s).call = s.call := rfl
@[simp] theorem defineX_budget (r : Byte) (s : State) : (defineX r s).budget = s.budget := rfl

/-! `defineY` -/

@[simp] theorem defineY_pc (r : Byte) (s : State) : (defineY r s).pc = s.pc := rfl
@[simp] theorem defineY_sp (r : Byte) (s : State) : (defineY r s).sp = s.sp := rfl
@[simp] theorem defineY_a (r : Byte) (s : State) : (defineY r s).a = s.a := rfl
@[simp] theorem defineY_x (r : Byte) (s : State) : (defineY r s).x = s.x := rfl
@[simp] theorem defineY_y (r : Byte) (s : State) : (defineY r s).y = r := rfl
@[simp] theorem defineY_c (r : Byte) (s : State) : (defineY r s).c = s.c := rfl
@[simp] theorem defineY_z (r : Byte) (s : State) : (defineY r s).z = zeroFlag r := rfl
@[simp] theorem defineY_i (r : Byte) (s : State) : (defineY r s).i = s.i := rfl
@[simp] theorem defineY_d (r : Byte) (s : State) : (defineY r s).d = s.d := rfl
@[simp] theorem defineY_b (r : Byte) (s : State) : (defineY r s).b = s.b := rfl
@[simp] theorem defineY_v (r : Byte) (s : State) : (defineY r s).v = s.v := rfl
@[simp] theorem defineY_n (r : Byte) (s : State) : (defineY r s).n = negativeFlag r := rfl
@[simp] theorem defineY_lifecycle (r : Byte) (s : State) : (defineY r s).lifecycle = s.lifecycle := rfl
@[simp] theorem defineY_mem (r : Byte) (s : State) : (defineY r s).mem = s.mem := rfl
@[simp] theorem defineY_call (r : Byte) (s : State) : (defineY r s).call = s.call := rfl
@[simp] theorem defineY_budget (r : Byte) (s : State) : (defineY r s).budget = s.budget := rfl

/-! The two flags the engine computes, against the result's value (rule R78) -/

theorem zeroFlag_iff (r : Byte) : zeroFlag r = true ↔ r = 0 := by simp [zeroFlag]

theorem negativeFlag_iff (r : Byte) : negativeFlag r = true ↔ 128 ≤ r.toNat := by
  have h : r.msb = decide (128 ≤ r.toNat) := BitVec.msb_eq_decide r
  have h7 : negativeFlag r = r.msb := by simp [negativeFlag, BitVec.msb_eq_getLsbD_last]
  simp [h7, h]

/-- Reset leaves the same state and the same memory from every state and every memory (rules R107, R108). -/
theorem resetMachine_eq (cfg : Config) (m : Memory) (s : State) : resetMachine cfg m s = (State.resetWith cfg, []) := rfl

end Sys2Proof.Machine
end

