-- ==== Sys2Proof/Laws/Fetch.lean ====
section
/-! SUPPORT. Each fetch primitive and each addressing mode in one equation: all it can answer. -/

namespace Sys2Proof.Machine

/-- `fetch_next_byte` answers the byte at PC, or `BudgetExhausted`, and nothing else (rules R65, R39). -/
theorem fetchNextByte_eq (s : State) :
    fetchNextByte s =
      if s.budget = 0 then .error .budgetExhausted else .ok (s.mem.peek s.pc.toNat, s.advance.spend) := by
  simp [fetchNextByte]

/-- `peek_byte` answers the byte at PC, or `BudgetExhausted`, and nothing else (rules R66, R39). -/
theorem peekByte_eq (s : State) :
    peekByte s = if s.budget = 0 then .error .budgetExhausted else .ok (s.mem.peek s.pc.toNat, s.spend) := by
  simp [peekByte]

/-- `read_indirect` answers the byte its pointer reaches, or `BudgetExhausted`, and nothing else (rules R67, R39). -/
theorem readIndirect_eq (addr : Word) (s : State) :
    readIndirect addr s =
      if s.budget = 0 then .error .budgetExhausted
      else .ok (s.mem.peek ((s.mem.peek addr.toNat).setWidth 16).toNat, s.spend) := by
  simp only [readIndirect, memRead_word]

/-- The operand fetch of an instruction is `fetch_next_byte` where memory holds its operand byte (log 11). -/
theorem fetchOperand_eq_fetchNextByte (imm : Byte) (s : State) (h : operandByte s = imm) :
    fetchOperand imm s = fetchNextByte s := by
  rw [fetchNextByte_eq, fetchOperand, ← h, operandByte]

/-- Immediate mode with a unit left: the body runs on the operand, PC past it, one unit spent. -/
theorem withImmediate_pos (imm : Byte) (s : State) (body : Byte → State → State) (h : 0 < s.budget) :
    withImmediate imm s body = .next (body imm s.advance.spend) := by
  simp [withImmediate, fetchOperand, Nat.pos_iff_ne_zero.1 h]

/-- Immediate mode with no unit left: the call ends, and nothing else is written (rules R71 (c), R93). -/
theorem withImmediate_zero (imm : Byte) (s : State) (body : Byte → State → State) (h : s.budget = 0) :
    withImmediate imm s body = .next (endCall .budgetExhausted s) := by
  simp [withImmediate, fetchOperand, h]

end Sys2Proof.Machine
end

