-- ==== Sys2Proof/Laws/Exec.lean ====
section
/-! SUPPORT. What each instruction does, in one equation each, and the two shapes every instruction has. -/

namespace Sys2Proof.Machine

/-- The register and flag mutation of an instruction (rule R71 (b)): its whole effect once its operand is fetched. -/
def bodyOf : Instr → State → State
  | .ldaImm imm, s => defineA imm s
  | .ldxImm imm, s => defineX imm s
  | .ldyImm imm, s => defineY imm s
  | .inx, s => defineX (aluInc s.x) s
  | .iny, s => defineY (aluInc s.y) s
  | .tsx, s => defineX (aluLow s.sp) s
  | .clc, s => s.setC false
  | .cld, s => s.setD false
  | .cli, s => s.setI false
  | .clv, s => s.setV false

/-- An instruction of length 1 answers its body's state. -/
theorem exec_imp (i : Instr) (s : State) (h : i.length = 1) : exec i s = .next (bodyOf i s) := by
  cases i <;> first | rfl | simp [Instr.length, Instr.handler, Handler.format, Format.length] at h

/-- An instruction of length 2 with a unit left answers its body's state, PC past the operand, one unit spent. -/
theorem exec_imm_pos (i : Instr) (s : State) (h : i.length = 2) (hb : 0 < s.budget) :
    exec i s = .next (bodyOf i s.advance.spend) := by
  cases i <;>
    first
    | exact withImmediate_pos _ _ _ hb
    | simp [Instr.length, Instr.handler, Handler.format, Format.length] at h

/-- An instruction of length 2 with no unit left ends the call and writes nothing else. -/
theorem exec_imm_zero (i : Instr) (s : State) (h : i.length = 2) (hb : s.budget = 0) :
    exec i s = .next (endCall .budgetExhausted s) := by
  cases i <;>
    first
    | exact withImmediate_zero _ _ _ hb
    | simp [Instr.length, Instr.handler, Handler.format, Format.length] at h

theorem length_cases (i : Instr) : i.length = 1 ∨ i.length = 2 := by
  cases i <;> simp [Instr.length, Instr.handler, Handler.format, Format.length]

/-- All that `exec` can answer: the body's state, after the operand fetch if there is one, or the end of the call. -/
theorem exec_cases (i : Instr) (s : State) :
    (i.length = 1 ∧ exec i s = .next (bodyOf i s)) ∨
    (i.length = 2 ∧ 0 < s.budget ∧ exec i s = .next (bodyOf i s.advance.spend)) ∨
    (i.length = 2 ∧ s.budget = 0 ∧ exec i s = .next (endCall .budgetExhausted s)) := by
  obtain h | h := length_cases i
  · exact .inl ⟨h, exec_imp i s h⟩
  · obtain hb | hb := Nat.eq_zero_or_pos s.budget
    · exact .inr (.inr ⟨h, hb, exec_imm_zero i s h hb⟩)
    · exact .inr (.inl ⟨h, hb, exec_imm_pos i s h hb⟩)

/-! What a body leaves alone, whatever the instruction -/

@[simp] theorem bodyOf_pc (i : Instr) (s : State) : (bodyOf i s).pc = s.pc := by cases i <;> rfl
@[simp] theorem bodyOf_sp (i : Instr) (s : State) : (bodyOf i s).sp = s.sp := by cases i <;> rfl
@[simp] theorem bodyOf_b (i : Instr) (s : State) : (bodyOf i s).b = s.b := by cases i <;> rfl
@[simp] theorem bodyOf_lifecycle (i : Instr) (s : State) : (bodyOf i s).lifecycle = s.lifecycle := by cases i <;> rfl
@[simp] theorem bodyOf_mem (i : Instr) (s : State) : (bodyOf i s).mem = s.mem := by cases i <;> rfl
@[simp] theorem bodyOf_call (i : Instr) (s : State) : (bodyOf i s).call = s.call := by cases i <;> rfl

end Sys2Proof.Machine
end

