-- ==== Sys2Proof/Laws/Engine.lean ====
section
/-! SUPPORT. All that one pass of the execute loop can do, and when it does what. -/

namespace Sys2Proof.Machine

/-- The loop's body with a unit left: the byte at PC is looked up, and its handler runs, or the call ends with
`UnknownOpcode` (rule R69). -/
theorem fetchAndRun_pos (m : OpcodeMap) (s : State) (h : 0 < s.budget) :
    fetchAndRun m s =
      match m.lookup (s.mem.peek s.pc.toNat) with
      | none => .next (endCall (.unknownOpcode (s.mem.peek s.pc.toNat) s.pc) (afterOpcode s))
      | some h => exec (h.instr (operandByte (afterOpcode s))) (afterOpcode s) := by
  rw [fetchAndRun, fetchNextByte_eq, if_neg (Nat.pos_iff_ne_zero.1 h)]
  rfl

theorem loopPass_notRunning (m : OpcodeMap) (s : State) (h : ∀ k, s.call ≠ .running k) : loopPass m s = .next s := by
  unfold loopPass
  split <;> simp_all

theorem loopPass_undefined (m : OpcodeMap) (s : State) (k : Nat) (h : s.call = .running k)
    (hl : s.lifecycle = .undefined) : loopPass m s = .refused .coreUndefined := by
  simp [loopPass, h, hl]

theorem loopPass_zero (m : OpcodeMap) (s : State) (h : s.call = .running 0) (hl : s.lifecycle = .defined) :
    loopPass m s = .next (endCall .completed s) := by
  simp [loopPass, h, hl]

theorem loopPass_pos (m : OpcodeMap) (s : State) (k : Nat) (h : s.call = .running (k + 1))
    (hl : s.lifecycle = .defined) : loopPass m s = fetchAndRun m s := by
  simp [loopPass, h, hl]

/-- Everything a pass can do: nothing (no call), a refusal (never reset), `Completed` (budget 0), `UnknownOpcode`,
or the handler of the byte at PC. -/
theorem loopPass_cases (m : OpcodeMap) (s : State) :
    ((∀ k, s.call ≠ .running k) ∧ loopPass m s = .next s) ∨
    (∃ k, s.call = .running k ∧ s.lifecycle = .undefined ∧ loopPass m s = .refused .coreUndefined) ∨
    (s.call = .running 0 ∧ s.lifecycle = .defined ∧ loopPass m s = .next (endCall .completed s)) ∨
    (∃ k, s.call = .running (k + 1) ∧ s.lifecycle = .defined ∧ m.lookup (s.mem.peek s.pc.toNat) = none ∧
      loopPass m s = .next (endCall (.unknownOpcode (s.mem.peek s.pc.toNat) s.pc) (afterOpcode s))) ∨
    (∃ k h, s.call = .running (k + 1) ∧ s.lifecycle = .defined ∧ m.lookup (s.mem.peek s.pc.toNat) = some h ∧
      loopPass m s = exec (h.instr (operandByte (afterOpcode s))) (afterOpcode s)) := by
  by_cases hr : ∃ k, s.call = .running k
  · obtain ⟨k, hk⟩ := hr
    cases hl : s.lifecycle with
    | undefined => exact .inr (.inl ⟨k, hk, rfl, loopPass_undefined m s k hk hl⟩)
    | defined =>
      cases k with
      | zero => exact .inr (.inr (.inl ⟨hk, rfl, loopPass_zero m s hk hl⟩))
      | succ k =>
        have hb : 0 < s.budget := by simp [State.budget_of_running s _ hk]
        have he := (loopPass_pos m s k hk hl).trans (fetchAndRun_pos m s hb)
        cases hm : m.lookup (s.mem.peek s.pc.toNat) with
        | none => exact .inr (.inr (.inr (.inl ⟨k, hk, rfl, rfl, by simpa [hm] using he⟩)))
        | some h => exact .inr (.inr (.inr (.inr ⟨k, h, hk, rfl, rfl, by simpa [hm] using he⟩)))
  · exact .inl ⟨fun k h => hr ⟨k, h⟩, loopPass_notRunning m s fun k h => hr ⟨k, h⟩⟩

/-- What decoding the bytes at PC answers is what the pass runs: the handler of the byte at PC, with the byte after it. -/
theorem lookup_of_decode {m : OpcodeMap} {s : State} {i : Instr} {rest : List Byte}
    (h : decode m (bytesAtPc s) = .instr i rest) :
    ∃ hd, m.lookup (s.mem.peek s.pc.toNat) = some hd ∧ hd.instr (operandByte (afterOpcode s)) = i := by
  simp only [decode, bytesAtPc] at h
  cases hl : m.lookup (s.mem.peek s.pc.toNat) with
  | none => simp [hl] at h
  | some hd =>
    refine ⟨hd, rfl, ?_⟩
    cases hd <;> simp [hl, Handler.format, Handler.instr] at h ⊢ <;> simp [← h.1, operandByte]

/-- What every pass keeps, the whole loop keeps: the induction over a call's passes, once. -/
theorem runCall_keeps (P : State → Prop) (m : OpcodeMap) (hP : ∀ s t, P s → loopPass m s = .next t → P t)
    (passes : Nat) (s t : State) (hs : P s) (h : runCall m passes s = .next t) : P t := by
  induction passes generalizing s with
  | zero => cases h; exact hs
  | succ passes ih =>
    unfold runCall at h
    cases hc : s.call <;> simp only [hc] at h
    · cases h; exact hs
    · cases hp : loopPass m s <;> simp only [hp] at h
      · exact ih _ (hP _ _ hs hp) h
      · cases h
      · cases h
    · cases h; exact hs

/-- The loop does nothing once the call has returned. -/
theorem runCall_returned (m : OpcodeMap) (passes : Nat) (s : State) (o : ExecOutcome) (k : Nat)
    (h : s.call = .returned o k) : runCall m passes s = .next s := by
  cases passes <;> simp [runCall, h]

/-- The loop of a running call with a pass to spare is that pass, then the loop of what it left. -/
theorem runCall_step (m : OpcodeMap) (passes : Nat) (s t : State) (k : Nat) (hc : s.call = .running k)
    (h : loopPass m s = .next t) : runCall m (passes + 1) s = runCall m passes t := by
  simp [runCall, hc, h]

end Sys2Proof.Machine
end

