-- ==== Sys2Proof/Laws/HostOps.lean ====
section
/-! SUPPORT. Each host operation in one equation, an act of the session as its operation, and the host's run as steps. -/

namespace Sys2Proof.Machine

theorem performOp_inCall (cfg : Config) (op : HostOp) (s : State) (h : inCall s = true) :
    performOp cfg op s = .refused .callInProgress := by
  simp [performOp, h]

theorem performOp_reset (cfg : Config) (m : Memory) (s : State) (h : inCall s = false) :
    performOp cfg (.reset m) s = .next (State.resetWith cfg, .done []) := by
  simp [performOp, h, resetMachine_eq]

theorem performOp_execute (cfg : Config) (k : Nat) (m : Memory) (s : State) (h : inCall s = false) :
    performOp cfg (.execute k m) s = executeCall cfg k m s := by
  simp [performOp, h]

theorem performOp_observe (cfg : Config) (s : State) (h : inCall s = false) (hl : s.lifecycle = .defined) :
    performOp cfg .observe s = .next (s, .observed (observation s)) := by
  simp [performOp, h, hostObserve, hl]

theorem performOp_memWrite (cfg : Config) (m : Memory) (s : State) (addr : Nat) (v : Byte) (h : inCall s = false) :
    performOp cfg (.memWrite m addr v) s =
      .next (s, if 65536 ≤ addr then .failed .outOfRange else .done (m.poke addr v)) := by
  by_cases ha : 65536 ≤ addr <;> simp [performOp, h, hostWrite, memWrite, ha]

theorem performOp_memRead (cfg : Config) (m : Memory) (s : State) (addr : Nat) (h : inCall s = false) :
    performOp cfg (.memRead m addr) s =
      .next (s, if 65536 ≤ addr then .failed .outOfRange else .byte (m.peek addr)) := by
  by_cases ha : 65536 ≤ addr <;> simp [performOp, h, hostRead, memRead, ha]

/-- A call whose loop returned answers the host what it returned, and hands the memory back. -/
theorem executeCall_of_run (cfg : Config) (k left : Nat) (m : Memory) (s t : State) (o : ExecOutcome)
    (hl : s.lifecycle = .defined) (h : runCall cfg.opcodeMap (k + 1) (beginCall k m s) = .next t)
    (hr : t.call = .returned o left) : executeCall cfg k m s = .next (t.handBack, .executed o left t.mem) := by
  simp [executeCall, hl, h, hr]

/-- A call answers only where the core was reset and no other call runs. -/
theorem performOp_execute_next (cfg : Config) (k : Nat) (m : Memory) (s t : State) (r : HostReply)
    (h : performOp cfg (.execute k m) s = .next (t, r)) : s.lifecycle = .defined ∧ inCall s = false := by
  unfold performOp at h
  cases hi : inCall s <;> simp [hi, executeCall] at h
  cases hl : s.lifecycle <;> simp [hl] at h
  exact ⟨rfl, rfl⟩

/-- An act of the session that succeeds is its operation on the session's memory, and the session keeps what that
hands back. -/
theorem sessionAct_next (cfg : Config) (a : HostAct) (g h : Session) (r : HostReply) :
    sessionAct cfg a g = .next (h, r) ↔
      performOp cfg (a.withMemory g.memory) g.core = .next (h.core, r) ∧ h.memory = r.memoryAfter g.memory := by
  unfold sessionAct
  cases hp : performOp cfg (a.withMemory g.memory) g.core with
  | next p =>
    obtain ⟨t, r'⟩ := p
    cases h
    simp only [Host.Outcome.next.injEq, Prod.mk.injEq, Session.mk.injEq]
    constructor
    · rintro ⟨⟨rfl, rfl⟩, rfl⟩; exact ⟨⟨rfl, rfl⟩, rfl⟩
    · rintro ⟨⟨rfl, rfl⟩, rfl⟩; exact ⟨⟨rfl, rfl⟩, rfl⟩
  | fault f => simp
  | refused f => simp

/-- A run of the host's machine takes one step after another. -/
theorem core_run_succ (n : Nat) (s t : State) (h : step s = .next t) :
    Sys2Proof.core.run (n + 1) s = Sys2Proof.core.run n t := by
  have run_succ : ∀ (M : Host.Core) (s t : M.State), M.step s = .next t → M.run (n + 1) s = M.run n t :=
    fun M s t h => by simp only [Host.Core.run, h]
  exact run_succ Sys2Proof.core s t h

end Sys2Proof.Machine
end

