-- ==== Sys2Proof/Laws/PerInstr.lean ====
section
/-! SUPPORT. The statement made of each instruction as syntax: under the default opcode map it has an encoding of its own length. -/

namespace Sys2Proof.Laws.Encoded

/-- The instruction is well formed and encodes to as many bytes as its length (rules R52, R53). -/
def Statement (i : Instr) : Prop :=
  i.wellFormed = true ∧ (encode defaultOpcodeMap i).map List.length = some i.length

theorem ldaImm (imm : Byte) : Statement (.ldaImm imm) := ⟨rfl, rfl⟩
theorem ldxImm (imm : Byte) : Statement (.ldxImm imm) := ⟨rfl, rfl⟩
theorem ldyImm (imm : Byte) : Statement (.ldyImm imm) := ⟨rfl, rfl⟩
theorem inx : Statement .inx := ⟨rfl, rfl⟩
theorem iny : Statement .iny := ⟨rfl, rfl⟩
theorem tsx : Statement .tsx := ⟨rfl, rfl⟩
theorem clc : Statement .clc := ⟨rfl, rfl⟩
theorem cld : Statement .cld := ⟨rfl, rfl⟩
theorem cli : Statement .cli := ⟨rfl, rfl⟩
theorem clv : Statement .clv := ⟨rfl, rfl⟩

end Sys2Proof.Laws.Encoded
end

