-- ==== Sys2Proof/Laws/Safety.lean ====
section
/-! SUPPORT. Which states are alike once their flags, or their data, are forgotten. -/

namespace Sys2Proof.Machine

/-- Two states with equal fields are equal. -/
theorem State.eq_of_fields {s t : State} (hpc : s.pc = t.pc) (hsp : s.sp = t.sp) (ha : s.a = t.a) (hx : s.x = t.x)
    (hy : s.y = t.y) (hc : s.c = t.c) (hz : s.z = t.z) (hi : s.i = t.i) (hd : s.d = t.d) (hb : s.b = t.b)
    (hv : s.v = t.v) (hn : s.n = t.n) (hl : s.lifecycle = t.lifecycle) (hm : s.mem = t.mem)
    (hcall : s.call = t.call) : s = t := by
  obtain ⟨⟨⟩, _, _⟩ := s
  obtain ⟨⟨⟩, _, _⟩ := t
  simp_all

/-- States alike but for their flags agree on everything else. -/
theorem State.eraseFlags_eq_iff (s t : State) :
    s.eraseFlags = t.eraseFlags ↔
      s.pc = t.pc ∧ s.sp = t.sp ∧ s.a = t.a ∧ s.x = t.x ∧ s.y = t.y ∧
        s.lifecycle = t.lifecycle ∧ s.mem = t.mem ∧ s.call = t.call := by
  constructor
  · intro h
    refine ⟨?_, ?_, ?_, ?_, ?_, ?_, ?_, ?_⟩
    · simpa [State.eraseFlags] using congrArg (fun u : State => u.pc) h
    · simpa [State.eraseFlags] using congrArg (fun u : State => u.sp) h
    · simpa [State.eraseFlags] using congrArg (fun u : State => u.a) h
    · simpa [State.eraseFlags] using congrArg (fun u : State => u.x) h
    · simpa [State.eraseFlags] using congrArg (fun u : State => u.y) h
    · simpa [State.eraseFlags] using congrArg (fun u : State => u.lifecycle) h
    · simpa [State.eraseFlags] using congrArg State.mem h
    · simpa [State.eraseFlags] using congrArg State.call h
  · rintro ⟨hpc, hsp, ha, hx, hy, hl, hm, hcall⟩
    apply State.eq_of_fields <;> simp [State.eraseFlags, *]

/-- States alike but for their data agree on PC, the lifecycle, memory and the call. -/
theorem State.eraseData_eq_iff (s t : State) :
    s.eraseData = t.eraseData ↔ s.pc = t.pc ∧ s.lifecycle = t.lifecycle ∧ s.mem = t.mem ∧ s.call = t.call := by
  constructor
  · intro h
    refine ⟨?_, ?_, ?_, ?_⟩
    · simpa [State.eraseData, State.eraseFlags] using congrArg (fun u : State => u.pc) h
    · simpa [State.eraseData, State.eraseFlags] using congrArg (fun u : State => u.lifecycle) h
    · simpa [State.eraseData, State.eraseFlags] using congrArg State.mem h
    · simpa [State.eraseData, State.eraseFlags] using congrArg State.call h
  · rintro ⟨hpc, hl, hm, hcall⟩
    apply State.eq_of_fields <;> simp [State.eraseData, State.eraseFlags, *]

/-- The invariant speaks of SP, the lifecycle, memory and five flags only. -/
theorem Inv_iff (cfg : Config) (s : State) :
    Inv cfg s ↔ s.lifecycle = .defined ∧ s.mem.wf = true ∧ s.sp = cfg.spReset ∧
      s.c = false ∧ s.i = false ∧ s.d = false ∧ s.b = false ∧ s.v = false := by
  simp [Inv, State.explicitFlagsClear, and_assoc]

end Sys2Proof.Machine
end

