-- ==== Sys2Proof/Tests/Slice0.lean ====
section
/-! SUPPORT. The model's own tests: encodings written out from 30_encoding.md, vectors of 95_test_vectors.md, ill-formed
terms that the checks refuse, and a witness for the hypotheses of each statement. -/

namespace Sys2Proof.Tests

open Sys2Proof Sys2Proof.Machine

/-- A core that was reset, in a call with this budget, PC at `pc`, memory as given. -/
def at_ (pc : Word) (mem : Memory) (budget : Nat) : State :=
  { State.reset with pc := pc, mem := mem, call := .running budget }

/-- The state an outcome goes on with, if it does. -/
def nextOf {σ : Type} (o : Host.Outcome σ Fault Refusal) : Option σ :=
  match o with
  | .next s => some s
  | .fault _ => none
  | .refused _ => none

/-- All seven flags set: section 2.7 of 95_test_vectors.md. -/
def allFlags (s : State) : State :=
  { s with c := true, z := true, i := true, d := true, b := true, v := true, n := true }

/-! Well-formedness: the default map passes, and each check refuses a map that fails it alone -/

theorem test_default_map_is_well_formed : defaultOpcodeMap.wellFormed = true := by decide

/-- One byte for two handlers. -/
theorem test_two_rows_for_one_byte_are_refused :
    OpcodeMap.opcodesDistinct [(0xA9, .lda), (0xA9, .ldx)] = false := by decide

/-- Two bytes for one handler. -/
theorem test_two_rows_for_one_handler_are_refused :
    OpcodeMap.handlersDistinct [(0xA9, .lda), (0xA5, .lda)] = false := by decide

/-- The last row left out. -/
theorem test_a_missing_handler_is_refused : OpcodeMap.covers defaultOpcodeMap.dropLast = false := by decide

/-- 0xFF mapped, which DOC fixes as unmapped (R58). -/
theorem test_mapping_ff_is_refused : OpcodeMap.leavesFF [(0xFF, .clv)] = false := by decide

theorem test_an_ill_formed_map_is_refused : OpcodeMap.wellFormed ((0xA9, .ldx) :: defaultOpcodeMap) = false := by decide

/-- Cells out of order, a cell listed at 0x00, a cell outside the address space. -/
theorem test_ill_formed_memories_are_refused :
    Memory.wf [(2, 1), (1, 1)] = false ∧ Memory.wf [(1, 0)] = false ∧ Memory.wf [(65536, 1)] = false := by decide

/-! Decoding: each word written out bit by bit from the table of 30_encoding.md section 3 -/

theorem test_decode_lda : decode defaultOpcodeMap [0b10101001, 0b01000010] = .instr (.ldaImm 0x42) [] := by decide
theorem test_decode_ldx : decode defaultOpcodeMap [0b10100010, 0b11111111] = .instr (.ldxImm 0xFF) [] := by decide
theorem test_decode_ldy : decode defaultOpcodeMap [0b10100000, 0b00000101] = .instr (.ldyImm 0x05) [] := by decide
theorem test_decode_inx : decode defaultOpcodeMap [0b11101000, 0x42] = .instr .inx [0x42] := by decide
theorem test_decode_iny : decode defaultOpcodeMap [0b11001000] = .instr .iny [] := by decide
theorem test_decode_tsx : decode defaultOpcodeMap [0b10111010] = .instr .tsx [] := by decide
theorem test_decode_clc : decode defaultOpcodeMap [0b00011000] = .instr .clc [] := by decide
theorem test_decode_cld : decode defaultOpcodeMap [0b11011000] = .instr .cld [] := by decide
theorem test_decode_cli : decode defaultOpcodeMap [0b01011000] = .instr .cli [] := by decide
theorem test_decode_clv : decode defaultOpcodeMap [0b10111000] = .instr .clv [] := by decide

/-- BRK, NOP and STA of a 6502 are unmapped here (R58); a load without its operand byte is rejected by name. -/
theorem test_decode_rejects_by_name :
    decode defaultOpcodeMap [0x00] = .unmapped 0x00 ∧ decode defaultOpcodeMap [0xEA, 1] = .unmapped 0xEA ∧
      decode defaultOpcodeMap [0x8D] = .unmapped 0x8D ∧ decode defaultOpcodeMap [0xA9] = .noOperand 0xA9 ∧
      decode defaultOpcodeMap [] = .noBytes := by decide

/-- A word placed at PC is what the next step runs, across the top of memory too. -/
theorem test_fetch_word_wraps :
    (nextOf (step (State.withFetchWord { State.reset with pc := 0xFFFF } 16 0x33A9))).map (fun t => (t.a, t.pc)) =
      some (0x33, 1) := by decide

/-! The instructions, by section 2 of 95_test_vectors.md -/

/-- L9: the operand is read across the wrap. -/
theorem test_lda_operand_wraps :
    (nextOf (step (at_ 0xFFFF [(0, 0x33), (65535, 0xA9)] 2))).map (fun t => (t.a, t.z, t.n, t.pc, t.call)) =
      some (0x33, false, false, 1, .running 0) := by decide

/-- L10: the budget ends inside the instruction. -/
theorem test_lda_budget_exhausted :
    (nextOf (step { at_ 0x1000 [(0x1000, 0xA9)] 1 with a := 0x11 })).map (fun t => (t.a, t.z, t.pc, t.call)) =
      some (0x11, false, 0x1001, .returned .budgetExhausted 0) := by decide

/-- L4: the flags come from X, not from A. -/
theorem test_ldx_flags_from_x :
    (nextOf (step { at_ 0x1000 [(0x1000, 0xA2), (0x1001, 5)] 2 with z := true })).map (fun t => (t.x, t.z, t.a)) =
      some (5, false, 0) := by decide

/-- L7: the flags come from Y, not from A or X. -/
theorem test_ldy_flags_from_y :
    (nextOf (step { at_ 0x1000 [(0x1000, 0xA0), (0x1001, 0x42)] 2 with a := 0x80, z := true, n := true })).map
      (fun t => (t.y, t.z, t.n, t.a, t.x)) = some (0x42, false, false, 0x80, 0) := by decide

/-- I5: X wraps, and no carry or overflow is made. -/
theorem test_inx_wraps :
    (nextOf (step { at_ 0 [(0, 0xE8)] 1 with x := 0xFF, c := true, v := true })).map
      (fun t => (t.x, t.z, t.n, t.c, t.v)) = some (0, true, false, true, true) := by decide

/-- I2: X becomes negative. -/
theorem test_inx_sign :
    (nextOf (step { at_ 0 [(0, 0xE8)] 1 with x := 0x7F })).map (fun t => (t.x, t.z, t.n, t.pc)) =
      some (0x80, false, true, 1) := by decide

/-- I8: Y wraps, and X is not touched. -/
theorem test_iny_leaves_x :
    (nextOf (step { at_ 0 [(0, 0xC8)] 1 with y := 0xFF, x := 0x10 })).map (fun t => (t.y, t.x, t.z, t.n)) =
      some (0, 0x10, true, false) := by decide

/-- T5 and T6: the low byte of SP alone. -/
theorem test_tsx_low_byte :
    (nextOf (step { at_ 0 [(0, 0xBA)] 1 with sp := 0xFF80 })).map (fun t => (t.x, t.z, t.n, t.sp)) =
        some (0x80, false, true, 0xFF80) ∧
      (nextOf (step { at_ 0 [(0, 0xBA)] 1 with sp := 0xAB00, x := 0x55 })).map (fun t => (t.x, t.z)) =
        some (0, true) := by decide

/-- K1. -/
theorem test_clc_clears_c :
    nextOf (step (allFlags (at_ 0 [(0, 0x18)] 1))) =
      some { allFlags (at_ 1 [(0, 0x18)] 0) with c := false } := by decide

/-- K2. -/
theorem test_cld_clears_d :
    nextOf (step (allFlags (at_ 0 [(0, 0xD8)] 1))) =
      some { allFlags (at_ 1 [(0, 0xD8)] 0) with d := false } := by decide

/-- K3. -/
theorem test_cli_clears_i :
    nextOf (step (allFlags (at_ 0 [(0, 0x58)] 1))) =
      some { allFlags (at_ 1 [(0, 0x58)] 0) with i := false } := by decide

/-- K4. -/
theorem test_clv_clears_v :
    nextOf (step (allFlags (at_ 0 [(0, 0xB8)] 1))) =
      some { allFlags (at_ 1 [(0, 0xB8)] 0) with v := false } := by decide

/-! The ALU, the flag engine and the fetch unit, by sections 2.1 to 2.3 of 95_test_vectors.md -/

theorem test_alu : aluPass 0x5A = 0x5A ∧ aluInc 0x7F = 0x80 ∧ aluInc 0xFF = 0 ∧ aluLow 0xABCD = 0xCD := by decide

theorem test_set_zn :
    ((setZN 0x7F State.reset).z, (setZN 0x7F State.reset).n) = (false, false) ∧
      ((setZN 0x80 State.reset).z, (setZN 0x80 State.reset).n) = (false, true) ∧
      ((setZN 0 State.reset).z, (setZN 0 State.reset).n) = (true, false) := by decide

/-- The byte, PC and remaining budget after a fetch, if it succeeds. -/
def fetched (r : Except ExecOutcome (Byte × State)) : Option (Byte × Word × Nat) :=
  match r with
  | .ok (v, t) => some (v, t.pc, t.budget)
  | .error _ => none

/-- F2 and F3. -/
theorem test_fetch_next_byte :
    fetched (fetchNextByte (at_ 0xFFFF [(65535, 0x11)] 1)) = some (0x11, 0, 0) ∧
      fetched (fetchNextByte (at_ 0x1234 [] 0)) = none := by decide

/-- F4. -/
theorem test_peek_byte : fetched (peekByte (at_ 0x2000 [(0x2000, 0x99)] 2)) = some (0x99, 0x2000, 1) := by decide

/-- F6 and F7: the pointer reaches its page-zero target, one unit for both reads. -/
theorem test_read_indirect :
    fetched (readIndirect 0x2000 (at_ 0 [(0x10, 0x77), (0x2000, 0x10)] 1)) = some (0x77, 0, 0) ∧
      fetched (readIndirect 5 (at_ 0 [(5, 0xFF), (0xFF, 0x3C)] 5)) = some (0x3C, 0, 4) := by decide

/-! The loop and the host's operations, by sections 1 and 2.8 to 2.10 of 95_test_vectors.md -/

/-- The reply of a host operation, if it is performed. -/
def replyOf (o : Host.Outcome (State × HostReply) Fault Refusal) : Option HostReply := (nextOf o).map Prod.snd

/-- E7: execute(2) of LDA #0x42 at the reset vector. -/
theorem test_execute_lda :
    (nextOf (performOp defaultConfig (.execute 2 [(0xFFFC, 0xA9), (0xFFFD, 0x42)]) State.reset)).map
      (fun p => (p.1.a, p.1.z, p.1.n, p.1.pc, p.2)) =
    some (0x42, false, false, 0xFFFE, .executed .completed 0 [(0xFFFC, 0xA9), (0xFFFD, 0x42)]) := by decide

/-- E8, X3 and X4: an unmapped byte ends the call, with the rest of the budget. -/
theorem test_execute_unknown_opcode :
    replyOf (performOp defaultConfig (.execute 1 [(0xFFFC, 0xFF)]) State.reset) =
        some (.executed (.unknownOpcode 0xFF 0xFFFC) 0 [(0xFFFC, 0xFF)]) ∧
      replyOf (performOp defaultConfig (.execute 5 [(0xFFFC, 0xEA)]) State.reset) =
        some (.executed (.unknownOpcode 0xEA 0xFFFC) 4 [(0xFFFC, 0xEA)]) := by decide

/-- M1, M2, M3: round trip at the top, the last write wins, the neighbour is untouched. -/
theorem test_memory :
    ((memClear []).poke 0xFFFF 0xAB).peek 0xFFFF = 0xAB ∧ (((memClear []).poke 0 1).poke 0 2).peek 0 = 2 ∧
      ((memClear []).poke 0x10 0x55).peek 0x11 = 0 ∧ ((memClear []).poke 7 1).poke 7 0 = [] := by decide

/-- M4. -/
theorem test_host_write_out_of_range :
    nextOf (sessionAct defaultConfig (.memWrite 70000 0x12) { core := State.reset, memory := [(3, 1)] }) =
      some ({ core := State.reset, memory := [(3, 1)] }, .failed .outOfRange) := by decide

/-- S1. -/
theorem test_reset_from_any_state :
    nextOf (performOp defaultConfig (.reset [(0x1000, 0xA9)]) { allFlags State.reset with pc := 0x4321 }) =
      some (State.reset, .done []) := by decide

/-! Witnesses: for each statement with hypotheses, a state and operands that meet them all, at the edge of each clause -/

theorem test_witness_EncodedInstructionDecodesBack :
    defaultOpcodeMap.wellFormed = true ∧ (Instr.ldaImm 0xFF).wellFormed = true := by decide

theorem test_witness_DecodedBytesAreTheEncoding :
    defaultOpcodeMap.wellFormed = true ∧ decode defaultOpcodeMap [0xA0, 0xFF, 1] = .instr (.ldyImm 0xFF) [1] := by decide

theorem test_witness_OperandNeverChangesDecoding :
    decode defaultOpcodeMap [0xA2, 0] = .instr (.ldxImm 0) [] ∧ decode defaultOpcodeMap [0xE8, 0] = .instr .inx [0] ∧
      decode defaultOpcodeMap [0xFF, 0] = .unmapped 0xFF := by decide

theorem test_witness_LengthIsFormatAndCost :
    (at_ 0 [] 1).call = .running 1 ∧ (Instr.ldaImm 0).length ≤ 1 + 1 ∧
      (at_ 0 [] 0).call = .running 0 ∧ Instr.inx.length ≤ 0 + 1 := by decide

theorem test_witness_StepRunsTheDecodedInstruction :
    (at_ 0xFFFF [(0, 7), (65535, 0xA9)] 1).lifecycle = .defined ∧
      (at_ 0xFFFF [(0, 7), (65535, 0xA9)] 1).call = .running (0 + 1) ∧
      decode defaultOpcodeMap (bytesAtPc (at_ 0xFFFF [(0, 7), (65535, 0xA9)] 1)) = .instr (.ldaImm 7) [] ∧
      (Instr.ldaImm 7).wellFormed = true := by decide

theorem test_witness_UnknownOpcodeEndsTheCall :
    (at_ 0xFFFF [] 1).lifecycle = .defined ∧ (at_ 0xFFFF [] 1).call = .running (0 + 1) ∧
      defaultOpcodeMap.lookup ((at_ 0xFFFF [] 1).mem.peek (at_ 0xFFFF [] 1).pc.toNat) = none := by decide

theorem test_witness_BudgetInsideALoadEndsTheCall :
    (at_ 5 [(5, 0xA2)] 1).lifecycle = .defined ∧ (at_ 5 [(5, 0xA2)] 1).call = .running 1 ∧
      decode defaultOpcodeMap (bytesAtPc (at_ 5 [(5, 0xA2)] 1)) = .instr (.ldxImm 0) [] ∧
      (Instr.ldxImm 0).length = 2 := by decide

theorem test_witness_BudgetZeroCompletesBeforeAnyFetch :
    (at_ 0 [(0, 0xE8)] 0).lifecycle = .defined ∧ (at_ 0 [(0, 0xE8)] 0).call = .running 0 := by decide

theorem test_witness_NoCallNoChange :
    (∀ k, State.reset.call ≠ .running k) ∧
      (∀ k, (State.reset.setCall (.returned .budgetExhausted 0)).call ≠ .running k) :=
  ⟨fun _ => nofun, fun _ => nofun⟩

theorem test_witness_NeverResetCoreIsRefused :
    State.constructed.lifecycle = .undefined ∧ inCall State.constructed = false ∧
      (beginCall 0 [] State.constructed).lifecycle = .undefined ∧ inCall (beginCall 0 [] State.constructed) = true :=
  ⟨rfl, rfl, rfl, rfl⟩

theorem test_witness_StepAdvancesByTheLength :
    (at_ 0xFFFF [(0, 7), (65535, 0xA9)] 2).lifecycle = .defined ∧
      (at_ 0xFFFF [(0, 7), (65535, 0xA9)] 2).call = .running 2 ∧
      decode defaultOpcodeMap (bytesAtPc (at_ 0xFFFF [(0, 7), (65535, 0xA9)] 2)) = .instr (.ldaImm 7) [] ∧
      (Instr.ldaImm 7).length ≤ 2 := by decide

theorem test_witness_LdaLoadsTheAccumulator : 0 < (at_ 0xFFFF [] 1).budget := by decide

theorem test_witness_LdxLoadsX : 0 < (at_ 0x1001 [(0x1001, 5)] 1).budget := by decide

theorem test_witness_LdyLoadsY : 0 < (at_ 0x1001 [(0x1001, 0xFF)] 3).budget := by decide

theorem test_witness_LoadWithoutAUnitWritesNothing :
    (at_ 0x1001 [] 0).budget = 0 ∧ Instr.ldaImm 9 ∈ [Instr.ldaImm 9, .ldxImm 9, .ldyImm 9] ∧
      Instr.ldxImm 9 ∈ [Instr.ldaImm 9, .ldxImm 9, .ldyImm 9] ∧
      Instr.ldyImm 9 ∈ [Instr.ldaImm 9, .ldxImm 9, .ldyImm 9] := by decide

theorem test_witness_FlagsFollowTheRegisterWritten : 0 < (at_ 0 [] 1).budget := by decide

theorem test_witness_FetchNextByte : (at_ 0xFFFF [] 0).budget = 0 ∧ 0 < (at_ 0xFFFF [] 1).budget := by decide

theorem test_witness_PeekByte : (at_ 7 [(7, 1)] 0).budget = 0 ∧ 0 < (at_ 7 [(7, 1)] 1).budget := by decide

theorem test_witness_ReadIndirect : (at_ 7 [(5, 0xFF)] 0).budget = 0 ∧ 0 < (at_ 7 [(5, 0xFF)] 1).budget := by decide

theorem test_witness_FetchesWriteNoFlag :
    (∃ t r, fetchNextByte (at_ 0xFFFF [(65535, 9)] 1) = .ok (r, t)) ∧
      (∃ t r, peekByte (at_ 0xFFFF [(65535, 9)] 1) = .ok (r, t)) ∧
      (∃ t r, readIndirect 0xFFFF (at_ 0xFFFF [(65535, 9)] 1) = .ok (r, t)) :=
  ⟨⟨_, _, rfl⟩, ⟨_, _, rfl⟩, ⟨_, _, rfl⟩⟩

theorem test_witness_WriteThenRead :
    Memory.wf [(3, 1), (65535, 2)] = true ∧ 65535 < 65536 ∧ 65536 ≤ 65536 := by decide

theorem test_witness_MemoryHasOneForm :
    Memory.wf [(3, 1)] = true ∧ (∃ m, memWrite [(3, 1)] 65535 0 = .ok m) ∧
      ∀ addr, Memory.peek [(3, 1)] addr = Memory.peek [(3, 1)] addr :=
  ⟨rfl, ⟨_, rfl⟩, fun _ => rfl⟩

theorem test_witness_OutOfRangeIsTheHostsAlone :
    inCall Session.created.core = false ∧ 65536 ≤ 65536 ∧
      (∃ t, performOp defaultConfig (.execute 0 []) State.reset = .next (t, .executed .completed 0 [])) :=
  ⟨rfl, le_rfl, ⟨_, rfl⟩⟩

theorem test_witness_HostWriteIsFetched :
    inCall Session.created.core = false ∧ Session.created.memory.wf = true := ⟨rfl, rfl⟩

theorem test_witness_ResetLeaves : inCall State.constructed = false := rfl

theorem test_witness_ResetIsIdempotent :
    inCall State.constructed = false ∧ inCall (allFlags State.reset) = false := ⟨rfl, rfl⟩

theorem test_witness_ResetStateHasTheInvariant : inCall (allFlags State.reset) = false := rfl

theorem test_witness_NothingLoadedIsUnknownOpcode :
    inCall State.constructed = false ∧ defaultConfig.opcodeMap.lookup 0 = none := ⟨rfl, by decide⟩

theorem test_witness_StepKeepsTheInvariant :
    Inv defaultConfig (at_ 0 [(0, 0xE8)] 1) ∧ ∃ t, step (at_ 0 [(0, 0xE8)] 1) = .next t :=
  ⟨⟨rfl, rfl, rfl, rfl⟩, ⟨_, rfl⟩⟩

theorem test_witness_ReachableStatesHaveTheInvariant :
    ∃ h, ResetReachable defaultConfig h ∧ h.memory = [(0xFFFC, 0xE8)] :=
  ⟨_, .act _ _ (.memWrite 0xFFFC 0xE8) _ (.reset Session.created _ _ rfl) rfl, rfl⟩

theorem test_witness_StepWritesNoMemory : ∃ t, step (at_ 0 [(0, 0xA9), (1, 9)] 2) = .next t := ⟨_, rfl⟩

theorem test_witness_NoFlagIsWrittenAsASideEffect :
    Instr.clc ∈ [Instr.clc, .cld, .cli, .clv] ∧ Instr.clv ∈ [Instr.clc, .cld, .cli, .clv] := by decide

theorem test_witness_OnlyItsInstructionsWriteARegister :
    (∃ t, exec (.ldaImm 1) (at_ 0 [] 1) = .next t ∧ t.a ≠ (at_ 0 [] 1).a) ∧
      (∃ t, exec .inx (at_ 0 [] 0) = .next t ∧ t.x ≠ (at_ 0 [] 0).x) ∧
      (∃ t, exec .iny (at_ 0 [] 0) = .next t ∧ t.y ≠ (at_ 0 [] 0).y) :=
  ⟨⟨_, rfl, by decide⟩, ⟨_, rfl, by decide⟩, ⟨_, rfl, by decide⟩⟩

theorem test_witness_FlagsAreNeverRead :
    (allFlags (at_ 0 [(0, 0xE8)] 1)).eraseFlags = (at_ 0 [(0, 0xE8)] 1).eraseFlags ∧
      (∃ t, step (allFlags (at_ 0 [(0, 0xE8)] 1)) = .next t) ∧
      step (beginCall 1 [] State.constructed) = .refused .coreUndefined := ⟨rfl, ⟨_, rfl⟩, rfl⟩

theorem test_witness_DataNeverSteers :
    { at_ 0 [(0, 0xE8)] 1 with x := 0xFF, sp := 9, c := true }.eraseData = (at_ 0 [(0, 0xE8)] 1).eraseData ∧
      (∃ t, step { at_ 0 [(0, 0xE8)] 1 with x := 0xFF, sp := 9, c := true } = .next t) ∧
      step (beginCall 1 [] State.constructed) = .refused .coreUndefined := ⟨rfl, ⟨_, rfl⟩, rfl⟩

theorem test_witness_StackPointerHighByteIsInert :
    (0xAB00 : Word).toNat % 256 = (at_ 0 [(0, 0xBA)] 1).sp.toNat % 256 ∧
      (∃ t, step (at_ 0 [(0, 0xBA)] 1) = .next t) ∧
      defaultOpcodeMap.lookup ((at_ 0 [(0, 0xE8)] 1).mem.peek (at_ 0 [(0, 0xE8)] 1).pc.toNat) ≠ some .tsx ∧
      (∃ t, step (at_ 0 [(0, 0xE8)] 1) = .next t) ∧
      step (beginCall 1 [] State.constructed) = .refused .coreUndefined :=
  ⟨rfl, ⟨_, rfl⟩, by decide, ⟨_, rfl⟩, rfl⟩

theorem test_witness_ExecuteAlwaysEnds : State.reset.lifecycle = .defined ∧ inCall State.reset = false := by decide

theorem test_witness_NothingLeftUnlessUnknownOpcode :
    (∃ t, performOp defaultConfig (.execute 0 []) State.reset = .next (t, .executed .completed 0 [])) ∧
      (∃ t m, performOp defaultConfig (.execute 1 [(0xFFFC, 0xA9)]) State.reset =
        .next (t, .executed .budgetExhausted 0 m)) ∧
      (∃ t m, performOp defaultConfig (.execute 2 []) State.reset =
        .next (t, .executed (.unknownOpcode 0 0xFFFC) 1 m)) := ⟨⟨_, rfl⟩, ⟨_, _, rfl⟩, ⟨_, _, rfl⟩⟩

theorem test_witness_CompletedCallsCompose :
    ∃ t, CompletedRun defaultConfig 1 [(0xFFFC, 0xE8)] State.reset t := ⟨_, rfl⟩

theorem test_witness_ZeroBudgetDoesNoWork :
    (State.reset.setCall (.returned .completed 0)).lifecycle = .defined ∧
      inCall (State.reset.setCall (.returned .completed 0)) = false := by decide

theorem test_witness_OutcomesAreNotSticky :
    inCall State.reset = false ∧
      ∃ t, performOp defaultConfig (.execute 0 []) State.reset = .next (t, .executed .completed 0 []) :=
  ⟨rfl, ⟨_, rfl⟩⟩

theorem test_witness_AllFieldsAreObservable :
    (∃ t r, performOp defaultConfig (.reset [(3, 1)]) State.constructed = .next (t, r)) ∧
      (∃ t r, performOp defaultConfig (.execute 1 [(3, 1)]) State.reset = .next (t, r)) :=
  ⟨⟨_, _, rfl⟩, ⟨_, _, rfl⟩⟩

theorem test_witness_NoHostMoveDuringACall : (at_ 0 [] 0).call = .running 0 := rfl

theorem test_witness_SelfCheckNeverFaults :
    (at_ 0 [] 1).call = .running 1 ∧ (Instr.ldaImm 0).length ≤ 1 + 1 ∧
      (at_ 0 [] 0).call = .running 0 ∧ 0 + 1 < (Instr.ldaImm 0).length ∧ Instr.inx.length ≤ 0 + 1 := by decide

theorem test_witness_BudgetOfOneInstructionRunsIt :
    State.reset.lifecycle = .defined ∧ inCall State.reset = false ∧
      decode defaultOpcodeMap (bytesAtPc (beginCall (Instr.ldaImm 7).length [(0xFFFC, 0xA9), (0xFFFD, 7)] State.reset)) =
        .instr (.ldaImm 7) [] := by decide

theorem test_witness_MemoryIsLentForOneCall :
    inCall State.reset = false ∧
      (∃ t r, performOp defaultConfig (.reset [(3, 1)]) State.reset = .next (t, r)) ∧
      (∃ t r, performOp defaultConfig (.execute 1 [(0xFFFC, 0xE8)]) State.reset = .next (t, r)) :=
  ⟨rfl, ⟨_, _, rfl⟩, ⟨_, _, rfl⟩⟩

theorem test_witness_OnlyTheHostAndResetChangeMemory :
    (∃ h r, sessionAct defaultConfig .reset Session.created = .next (h, r)) ∧
      (∃ h r, sessionAct defaultConfig (.memWrite 65535 9) Session.created = .next (h, r)) ∧
      (∃ h r, sessionAct defaultConfig (.memWrite 65536 9) Session.created = .next (h, r)) ∧
      Session.created.memory.wf = true ∧
      (∃ h r, sessionAct defaultConfig (.execute 1) { core := State.reset, memory := [(0xFFFC, 0xE8)] } =
        .next (h, r)) ∧
      (∃ h r, sessionAct defaultConfig .observe { core := State.reset, memory := [] } = .next (h, r)) ∧
      (∃ h r, sessionAct defaultConfig (.memRead 65535) { core := State.reset, memory := [] } = .next (h, r)) :=
  ⟨⟨_, _, rfl⟩, ⟨_, _, rfl⟩, ⟨_, _, rfl⟩, rfl, ⟨_, _, rfl⟩, ⟨_, _, rfl⟩, ⟨_, _, rfl⟩⟩

theorem test_witness_ExecuteIsTheRunOfItsSteps : State.reset.lifecycle = .defined ∧ inCall State.reset = false := by decide

end Sys2Proof.Tests
end

section
/-! PROOFS. The family of 20_memory.md: what the memory port reads after a write. -/

namespace Sys2Proof.Machine

/-- What the port reads from the cell just written (rule R36). -/
theorem memRead_poke_same (m : Memory) {addr : Nat} (r : Byte) (hwf : m.wf = true) (hin : addr < 65536) :
    memRead (m.poke addr r) addr = .ok r := by
  rw [memRead_inside _ hin, Memory.peek_poke m addr addr r hwf, if_pos rfl]

/-- The frame of a write as the port sees it, outside the address space too: there both reads raise `OutOfRange`. -/
theorem memRead_poke_other (m : Memory) {addr other : Nat} (r : Byte) (hwf : m.wf = true) (hne : other ≠ addr) :
    memRead (m.poke addr r) other = memRead m other := by
  by_cases hin : other < 65536
  · rw [memRead_inside _ hin, memRead_inside _ hin, Memory.peek_poke m addr other r hwf, if_neg hne]
  · have hout : 65536 ≤ other := Nat.le_of_not_lt hin
    rw [memRead_outside _ hout, memRead_outside _ hout]

/-- Settles O29: inside the address space a write answers the memory with its cell poked, outside it both accesses
answer the range check. -/
theorem writeThenRead : Obligations.WriteThenRead := by
  unfold Obligations.WriteThenRead
  constructor
  · intro m addr r hwf hin
    exact ⟨m.poke addr r, memWrite_inside m r hin, memRead_poke_same m r hwf hin,
      fun _ hne => memRead_poke_other m r hwf hne⟩
  · intro m addr r hout
    exact ⟨memRead_outside m hout, memWrite_outside m r hout⟩

end Sys2Proof.Machine
end

section
/-! PROOFS. The family of 30_encoding.md: what decoding answers by the opcode byte alone, and what an instruction
costs. -/

namespace Sys2Proof

/-- An opcode byte without a row decodes to none, whatever follows (rule R58). -/
theorem decode_of_lookup_none {m : OpcodeMap} {op : Byte} (h : m.lookup op = none) (rest : List Byte) :
    decode m (op :: rest) = .unmapped op := by
  simp [decode, h]

/-- An `imp` instruction ends with its opcode byte (rule R52). -/
theorem decode_of_lookup_imp {m : OpcodeMap} {op : Byte} {hd : Handler} (h : m.lookup op = some hd)
    (hf : hd.format = .imp) (rest : List Byte) : decode m (op :: rest) = .instr (hd.instr 0) rest := by
  simp [decode, h, hf]

/-- An `imm` instruction takes the next byte as its operand, unchanged (rules R52, R54). -/
theorem decode_of_lookup_imm {m : OpcodeMap} {op : Byte} {hd : Handler} (h : m.lookup op = some hd)
    (hf : hd.format = .imm) (v : Byte) (rest : List Byte) :
    decode m (op :: v :: rest) = .instr (hd.instr v) rest := by
  simp [decode, h, hf]

/-- The opcode byte's row fixes the handler of what is decoded, whatever byte follows it. -/
theorem decode_handler_of_lookup {m : OpcodeMap} {op : Byte} {hd : Handler} (h : m.lookup op = some hd) (v : Byte)
    (rest : List Byte) : ∃ i after, decode m (op :: v :: rest) = .instr i after ∧ i.handler = hd := by
  cases hf : hd.format with
  | imp => exact ⟨_, _, decode_of_lookup_imp h hf _, Handler.instr_handler hd 0⟩
  | imm => exact ⟨_, _, decode_of_lookup_imm h hf v rest, Handler.instr_handler hd v⟩

/-- The handler fixes the length (rule R53). -/
theorem Instr.length_eq_of_handler_eq {i j : Instr} (h : j.handler = i.handler) : j.length = i.length :=
  congrArg (fun hd => hd.format.length) h

end Sys2Proof

namespace Sys2Proof.Machine

/-- Settles O5: both decodings follow the opcode byte's row, which fixes the handler, and the handler the length. -/
theorem operandNeverChangesDecoding : Obligations.OperandNeverChangesDecoding := by
  unfold Obligations.OperandNeverChangesDecoding
  intro m op v w rest
  cases hl : m.lookup op with
  | none =>
    have hv := decode_of_lookup_none hl (v :: rest)
    exact ⟨fun _ _ hi => (nomatch hv.symm.trans hi), fun _ => decode_of_lookup_none hl (w :: rest)⟩
  | some hd =>
    obtain ⟨i', after', hv, rfl⟩ := decode_handler_of_lookup hl v rest
    obtain ⟨j, after'', hw, hj⟩ := decode_handler_of_lookup hl w rest
    refine ⟨fun i after hi => ?_, fun hu => (nomatch hv.symm.trans hu)⟩
    obtain ⟨rfl, -⟩ := Decoded.instr.inj (hv.symm.trans hi)
    exact ⟨j, after'', hw, congrArg some hj.symm, hj, Instr.length_eq_of_handler_eq hj⟩

/-- The handler of an instruction whose length the budget reaches answers a next state, the call still running with
the length paid; `k + 1` counts the unit the opcode fetch has spent (rule R53). -/
theorem exec_cost (i : Instr) (s : State) {k : Nat} (hk : s.call = .running k) (hle : i.length ≤ k + 1) :
    ∃ t, exec i s = .next t ∧ t.call = .running (k + 1 - i.length) := by
  have hb : s.budget = k := State.budget_of_running s k hk
  obtain ⟨hlen, he⟩ | ⟨hlen, -, he⟩ | ⟨hlen, h0, -⟩ := exec_cases i s
  · exact ⟨_, he, by simp [hlen, hk]⟩
  · exact ⟨_, he, by simp [hlen, hb]⟩
  · omega

/-- Settles O6: formats and lengths by the table of handlers, the cost by the shapes an instruction can have. -/
theorem lengthIsFormatAndCost : Obligations.LengthIsFormatAndCost := by
  unfold Obligations.LengthIsFormatAndCost
  exact ⟨fun _ => ⟨rfl, rfl, rfl, rfl, rfl, rfl⟩, by decide, fun i s _ hk hle => exec_cost i s hk hle⟩

end Sys2Proof.Machine
end

section
/-! PROOFS. The family of 40_execute_engine.md: what a call leaves in the core, the flag engine and the flag clears,
and the frame of the fetch primitives. -/

namespace Sys2Proof.Machine

/-! What a call leaves in the core -/

/-- An `execute` call that answers is a reset core's loop that returned: the host is handed what it returned and the
memory (rules R27, R32, R69). -/
theorem executeCall_next {cfg : Config} {k : Nat} {m : Memory} {s t : State} {r : HostReply}
    (h : executeCall cfg k m s = .next (t, r)) :
    s.lifecycle = .defined ∧ ∃ u o left, runCall cfg.opcodeMap (k + 1) (beginCall k m s) = .next u ∧
      u.call = .returned o left ∧ t = u.handBack ∧ r = .executed o left u.mem := by
  unfold executeCall at h
  cases hl : s.lifecycle with
  | undefined => simp [hl] at h
  | defined =>
    cases hrun : runCall cfg.opcodeMap (k + 1) (beginCall k m s) with
    | fault f => simp [hl, hrun] at h
    | refused f => simp [hl, hrun] at h
    | next u =>
      cases hc : u.call with
      | idle => simp [hl, hrun, hc] at h
      | running j => simp [hl, hrun, hc] at h
      | returned o left =>
        simp only [hl, hrun, hc, Host.Outcome.next.injEq, Prod.mk.injEq] at h
        exact ⟨rfl, u, o, left, rfl, hc, h.1.symm, h.2.symm⟩

/-- A call begins the same whatever stands in the place of the call before it. -/
theorem beginCall_setCall (k : Nat) (m : Memory) (s : State) (c : Call) :
    beginCall k m (s.setCall c) = beginCall k m s := rfl

/-- So the whole `execute` call is the same too (rule R74). -/
theorem executeCall_setCall (cfg : Config) (k : Nat) (m : Memory) (s : State) (c : Call) :
    executeCall cfg k m (s.setCall c) = executeCall cfg k m s := by
  simp only [executeCall, State.setCall_lifecycle, beginCall_setCall]

/-- Where no call runs, none runs with the result of one standing there. -/
theorem inCall_setCall_returned (s : State) (o : ExecOutcome) (left : Nat) :
    inCall (s.setCall (.returned o left)) = false := by
  simp [inCall]

/-- Settles O49: a call reads of the core neither the result of the call before it nor whether there was one, and the
memory's hand-back clears its own. -/
theorem outcomesAreNotSticky : Obligations.OutcomesAreNotSticky := by
  unfold Obligations.OutcomesAreNotSticky
  intro cfg k left m s t o hin
  rw [performOp_execute cfg k m s hin, performOp_execute cfg k m _ (inCall_setCall_returned s o left)]
  refine ⟨executeCall_setCall cfg k m s _, fun r h => ?_⟩
  obtain ⟨-, u, -, -, -, -, rfl, -⟩ := executeCall_next h
  exact State.handBack_call u

/-- No handler writes the lifecycle (rule R27). -/
theorem exec_lifecycle {i : Instr} {s t : State} (h : exec i s = .next t) : t.lifecycle = s.lifecycle := by
  obtain ⟨-, he⟩ | ⟨-, -, he⟩ | ⟨-, -, he⟩ := exec_cases i s <;>
    · cases he.symm.trans h
      simp

/-- No pass of the loop writes the lifecycle (rule R27). -/
theorem loopPass_lifecycle {m : OpcodeMap} {s t : State} (h : loopPass m s = .next t) :
    t.lifecycle = s.lifecycle := by
  obtain ⟨-, hp⟩ | ⟨-, -, -, hp⟩ | ⟨-, -, hp⟩ | ⟨-, -, -, -, hp⟩ | ⟨-, hd, -, -, -, hp⟩ := loopPass_cases m s
  · cases hp.symm.trans h; rfl
  · cases hp.symm.trans h
  · cases hp.symm.trans h; simp
  · cases hp.symm.trans h; simp
  · rw [exec_lifecycle (hp.symm.trans h), afterOpcode_lifecycle]

/-- Nor does the whole loop. -/
theorem runCall_lifecycle {m : OpcodeMap} {passes : Nat} {s t : State} (h : runCall m passes s = .next t) :
    t.lifecycle = s.lifecycle :=
  runCall_keeps (·.lifecycle = s.lifecycle) m (fun _ _ hs hp => (loopPass_lifecycle hp).trans hs) passes s t rfl h

/-- A core that answered an `execute` call has been reset, and no call runs on it. -/
theorem executeCall_leaves {cfg : Config} {k : Nat} {m : Memory} {s t : State} {r : HostReply}
    (h : executeCall cfg k m s = .next (t, r)) : t.lifecycle = .defined ∧ inCall t = false := by
  obtain ⟨hl, u, -, -, hrun, -, rfl, -⟩ := executeCall_next h
  exact ⟨(runCall_lifecycle hrun).trans hl, rfl⟩

/-- Settles O50: after a reset, and after a call that answered, the core is defined and no call runs, so an
observation is answered from the state as it is. -/
theorem allFieldsAreObservable : Obligations.AllFieldsAreObservable := by
  unfold Obligations.AllFieldsAreObservable
  intro cfg op s t r hop h
  have hin : inCall s = false := by
    cases hi : inCall s with
    | false => rfl
    | true => cases (performOp_inCall cfg op s hi).symm.trans h
  have hleft : t.lifecycle = .defined ∧ inCall t = false := by
    obtain ⟨m, rfl⟩ | ⟨k, m, rfl⟩ := hop
    · cases (performOp_reset cfg m s hin).symm.trans h
      exact ⟨rfl, rfl⟩
    · exact executeCall_leaves ((performOp_execute cfg k m s hin).symm.trans h)
  exact performOp_observe cfg t hleft.2 hleft.1

/-! The flag clears and the flag engine -/

/-- Settles O21: a flag clear's whole effect is the write of its own flag. -/
theorem clearsTouchOnlyTheirFlag : Obligations.ClearsTouchOnlyTheirFlag := by
  unfold Obligations.ClearsTouchOnlyTheirFlag
  intro s
  exact ⟨⟨s.setC false, exec_imp .clc s rfl, State.setC_c s false, rfl⟩,
    ⟨s.setD false, exec_imp .cld s rfl, State.setD_d s false, rfl⟩,
    ⟨s.setI false, exec_imp .cli s rfl, State.setI_i s false, rfl⟩,
    ⟨s.setV false, exec_imp .clv s rfl, State.setV_v s false, rfl⟩⟩

/-- Z and N are those of A as just written (rule R79). -/
theorem defineA_flags (r : Byte) (s : State) :
    ((defineA r s).z = true ↔ (defineA r s).a = 0) ∧ (defineA r s).n = (defineA r s).a.getLsbD 7 :=
  ⟨zeroFlag_iff r, rfl⟩

/-- Z and N are those of X as just written (rule R79). -/
theorem defineX_flags (r : Byte) (s : State) :
    ((defineX r s).z = true ↔ (defineX r s).x = 0) ∧ (defineX r s).n = (defineX r s).x.getLsbD 7 :=
  ⟨zeroFlag_iff r, rfl⟩

/-- Z and N are those of Y as just written (rule R79). -/
theorem defineY_flags (r : Byte) (s : State) :
    ((defineY r s).z = true ↔ (defineY r s).y = 0) ∧ (defineY r s).n = (defineY r s).y.getLsbD 7 :=
  ⟨zeroFlag_iff r, rfl⟩

/-- Settles O22: each of the six ends in the write that defines its own register, a load after its operand fetch. -/
theorem flagsFollowTheRegisterWritten : Obligations.FlagsFollowTheRegisterWritten := by
  unfold Obligations.FlagsFollowTheRegisterWritten
  intro imm s
  refine ⟨fun hb => ⟨?lda, ?ldx, ?ldy⟩, ?inx, ?iny, ?tsx⟩
  case lda => exact ⟨_, exec_imm_pos (.ldaImm imm) s rfl hb, defineA_flags _ _⟩
  case ldx => exact ⟨_, exec_imm_pos (.ldxImm imm) s rfl hb, defineX_flags _ _⟩
  case ldy => exact ⟨_, exec_imm_pos (.ldyImm imm) s rfl hb, defineY_flags _ _⟩
  case inx => exact ⟨_, exec_imp .inx s rfl, defineX_flags _ _⟩
  case iny => exact ⟨_, exec_imp .iny s rfl, defineY_flags _ _⟩
  case tsx => exact ⟨_, exec_imp .tsx s rfl, defineX_flags _ _⟩

/-- Settles O23: the two flags against the value's number, and no third write. -/
theorem flagEngineWritesZAndN : Obligations.FlagEngineWritesZAndN := by
  unfold Obligations.FlagEngineWritesZAndN
  intro r s
  rw [setZN_z, setZN_n]
  exact ⟨zeroFlag_iff r, negativeFlag_iff r, rfl⟩

/-! The frame of the fetch primitives -/

/-- Behind the budget test every primitive stands behind, an answer is the one answer there is (rule R64). -/
theorem ok_of_budget_test {k : Nat} {o : ExecOutcome} {p q : Byte × State}
    (h : (if k = 0 then .error o else .ok p : Except ExecOutcome (Byte × State)) = .ok q) : p = q := by
  split at h
  · cases h
  · exact Except.ok.inj h

/-- `fetch_next_byte`, where it answers, moves PC on and spends a unit (rule R65). -/
theorem fetchNextByte_ok {s t : State} {r : Byte} (h : fetchNextByte s = .ok (r, t)) : t = s.advance.spend :=
  (congrArg Prod.snd (ok_of_budget_test ((fetchNextByte_eq s).symm.trans h))).symm

/-- `peek_byte`, where it answers, spends a unit (rule R66). -/
theorem peekByte_ok {s t : State} {r : Byte} (h : peekByte s = .ok (r, t)) : t = s.spend :=
  (congrArg Prod.snd (ok_of_budget_test ((peekByte_eq s).symm.trans h))).symm

/-- `read_indirect`, where it answers, spends a unit (rule R67). -/
theorem readIndirect_ok {addr : Word} {s t : State} {r : Byte} (h : readIndirect addr s = .ok (r, t)) :
    t = s.spend :=
  (congrArg Prod.snd (ok_of_budget_test ((readIndirect_eq addr s).symm.trans h))).symm

/-- Settles O28: a primitive that answers has spent a unit, `fetch_next_byte` after moving PC on, and neither update
writes a flag or another register. -/
theorem fetchesWriteNoFlag : Obligations.FetchesWriteNoFlag := by
  unfold Obligations.FetchesWriteNoFlag
  intro addr s t r
  have hspend : peekByte s = .ok (r, t) ∨ readIndirect addr s = .ok (r, t) → t = s.spend :=
    fun h => h.elim peekByte_ok readIndirect_ok
  constructor
  · rintro (hf | h)
    · simp [fetchNextByte_ok hf]
    · simp [hspend h]
  · intro h
    rw [hspend h, State.spend_pc]

end Sys2Proof.Machine
end

section
/-! PROOFS. The family of 60_exceptions.md: `OutOfRange` answers the host's accesses, and no call ends with it. -/

namespace Sys2Proof.Machine

/-! The host's accesses -/

/-- A host's read outside the address space answers `OutOfRange`, and the session is as it was (rule R94). -/
theorem sessionAct_memRead_outside (cfg : Config) (h : Session) {addr : Nat} (hin : inCall h.core = false)
    (hout : 65536 ≤ addr) : sessionAct cfg (.memRead addr) h = .next (h, .failed .outOfRange) := by
  refine (sessionAct_next cfg _ h h _).2 ⟨?_, rfl⟩
  rw [HostAct.withMemory, performOp_memRead cfg _ _ _ hin, if_pos hout]

/-- So does a host's write there, with no partial write (rules R34, R94). -/
theorem sessionAct_memWrite_outside (cfg : Config) (h : Session) {addr : Nat} (v : Byte)
    (hin : inCall h.core = false) (hout : 65536 ≤ addr) :
    sessionAct cfg (.memWrite addr v) h = .next (h, .failed .outOfRange) := by
  refine (sessionAct_next cfg _ h h _).2 ⟨?_, rfl⟩
  rw [HostAct.withMemory, performOp_memWrite cfg _ _ _ _ hin, if_pos hout]

/-! No call ends with it -/

/-- A call has ended, and with `OutOfRange`: what rule R94 says never comes about inside `execute`. -/
def EndedOutOfRange (s : State) : Prop := ∃ left, s.call = .returned .outOfRange left

/-- Whether a call has ended so is read off the call alone. -/
theorem endedOutOfRange_congr {s t : State} (h : t.call = s.call) : EndedOutOfRange t ↔ EndedOutOfRange s := by
  rw [EndedOutOfRange, EndedOutOfRange, h]

/-- A call that runs has not ended. -/
theorem not_endedOutOfRange_of_running {s : State} {k : Nat} (h : s.call = .running k) : ¬ EndedOutOfRange s := by
  simp [EndedOutOfRange, h]

/-- A call ends with the outcome it is given and no other. -/
theorem not_endedOutOfRange_endCall {o : ExecOutcome} (s : State) (ho : o ≠ .outOfRange) :
    ¬ EndedOutOfRange (endCall o s) := by
  simp [EndedOutOfRange, ho]

/-- No handler ends a call so: the one error it can raise is `BudgetExhausted` (rules R39, R71 (c)). -/
theorem exec_not_endedOutOfRange {i : Instr} {s t : State} (hs : ¬ EndedOutOfRange s) (h : exec i s = .next t) :
    ¬ EndedOutOfRange t := by
  obtain ⟨-, he⟩ | ⟨-, -, he⟩ | ⟨-, -, he⟩ := exec_cases i s <;> cases he.symm.trans h
  · rwa [endedOutOfRange_congr (bodyOf_call i s)]
  · exact not_endedOutOfRange_of_running ((bodyOf_call i _).trans (State.spend_call _))
  · exact not_endedOutOfRange_endCall s nofun

/-- No pass of the loop ends a call so: its own outcomes are `Completed` and `UnknownOpcode` (rule R69). -/
theorem loopPass_not_endedOutOfRange {m : OpcodeMap} {s t : State} (hs : ¬ EndedOutOfRange s)
    (h : loopPass m s = .next t) : ¬ EndedOutOfRange t := by
  obtain ⟨-, hp⟩ | ⟨-, -, -, hp⟩ | ⟨-, -, hp⟩ | ⟨-, -, -, -, hp⟩ | ⟨-, hd, -, -, -, hp⟩ := loopPass_cases m s
  · cases hp.symm.trans h; exact hs
  · cases hp.symm.trans h
  · cases hp.symm.trans h; exact not_endedOutOfRange_endCall s nofun
  · cases hp.symm.trans h; exact not_endedOutOfRange_endCall _ nofun
  · exact exec_not_endedOutOfRange (not_endedOutOfRange_of_running (afterOpcode_call s)) (hp.symm.trans h)

/-- An `execute` call that answers ends with another outcome: its loop starts in a running call, and every pass keeps
it from ending so. -/
theorem executeCall_ne_outOfRange {cfg : Config} {k left : Nat} {m m' : Memory} {s t : State} {o : ExecOutcome}
    (h : executeCall cfg k m s = .next (t, .executed o left m')) : o ≠ .outOfRange := by
  rintro rfl
  obtain ⟨-, u, o', left', hrun, hc, -, hr⟩ := executeCall_next h
  have hbegin : ¬ EndedOutOfRange (beginCall k m s) := not_endedOutOfRange_of_running (beginCall_call k m s)
  obtain ⟨rfl, rfl, -⟩ := HostReply.executed.inj hr
  exact runCall_keeps (¬ EndedOutOfRange ·) _ (fun _ _ => loopPass_not_endedOutOfRange) _ _ u hbegin hrun ⟨_, hc⟩

/-- Settles O31: the port's range check, the host's accesses behind it, and a loop no pass of which ends so. -/
theorem outOfRangeIsTheHostsAlone : Obligations.OutOfRangeIsTheHostsAlone := by
  unfold Obligations.OutOfRangeIsTheHostsAlone
  refine ⟨?port, ?host, ?execute⟩
  case port => exact fun m _ r hout => ⟨memRead_outside m hout, memWrite_outside m r hout⟩
  case host =>
    intro cfg h _ r hin hout
    exact ⟨sessionAct_memRead_outside cfg h hin hout, sessionAct_memWrite_outside cfg h r hin hout⟩
  case execute =>
    intro cfg k left m m' s t o h
    obtain ⟨-, hin⟩ := performOp_execute_next cfg k m s t _ h
    exact executeCall_ne_outOfRange ((performOp_execute cfg k m s hin).symm.trans h)

end Sys2Proof.Machine
end

section
/-! PROOFS. The family of 70_reset_and_hazards.md: what a reset leaves, and that it does not depend on what stood
before. -/

namespace Sys2Proof.Machine

/-- No call runs after a reset (rule R107), so the host can reset again at once. -/
@[simp] theorem inCall_resetWith (cfg : Config) : inCall (State.resetWith cfg) = false := rfl

/-- Settles O33: the reset between calls answers `State.resetWith`, whose fields are R107's values, and the empty list
of cells, which reads 0x00 everywhere. -/
theorem resetLeaves : Obligations.ResetLeaves := by
  unfold Obligations.ResetLeaves
  intro cfg m s hin
  refine ⟨State.resetWith cfg, [], performOp_reset cfg m s hin, Memory.peek_nil, ?fields⟩
  case fields => simp [State.resetWith]

/-- Settles O34: every reset between calls answers the same state and memory, and the state it leaves is between
calls, so the second reset is one of these too. -/
theorem resetIsIdempotent : Obligations.ResetIsIdempotent := by
  unfold Obligations.ResetIsIdempotent
  intro cfg m m' s s' hin hin'
  exact ⟨State.resetWith cfg, [], performOp_reset cfg m s hin, performOp_reset cfg m' s' hin',
    performOp_reset cfg [] (State.resetWith cfg) (inCall_resetWith cfg)⟩

end Sys2Proof.Machine
end

section
/-! PROOFS. The rest of the family of 30_encoding.md: encoding and decoding undo each other, and the bytes of the
default map. -/

namespace Sys2Proof

/-! What the formats say of the operand bytes -/

/-- An `imp` handler's instruction has no operand byte (rule R52). -/
theorem Handler.instr_operandBytes_imp {hd : Handler} (hf : hd.format = .imp) (v : Byte) :
    (hd.instr v).operandBytes = [] := by
  cases hd <;> cases hf <;> rfl

/-- An `imm` handler's instruction has its operand byte, unchanged (rules R52, R54). -/
theorem Handler.instr_operandBytes_imm {hd : Handler} (hf : hd.format = .imm) (v : Byte) :
    (hd.instr v).operandBytes = [v] := by
  cases hd <;> cases hf <;> rfl

/-- Under a well-formed map an instruction's opcode byte is found from its handler, and its handler from that byte
(rules R56, R57). -/
theorem OpcodeMap.exists_opcode {m : OpcodeMap} (hm : m.wellFormed = true) (hd : Handler) :
    ∃ op, m.opcodeOf hd = some op ∧ m.lookup op = some hd := by
  obtain ⟨hops, hhds, hcovers⟩ := m.wellFormed_parts hm
  obtain ⟨op, hrow⟩ := hcovers hd
  exact ⟨op, m.opcodeOf_of_mem hhds hrow, m.lookup_of_mem hops hrow⟩

/-- Under a well-formed map the byte a handler is looked up from is that handler's opcode byte. -/
theorem OpcodeMap.opcodeOf_of_lookup {m : OpcodeMap} (hm : m.wellFormed = true) {op : Byte} {hd : Handler}
    (h : m.lookup op = some hd) : m.opcodeOf hd = some op := by
  obtain ⟨-, hhds, -⟩ := m.wellFormed_parts hm
  exact m.opcodeOf_of_mem hhds (m.mem_of_lookup h)

/-- The encoding is the opcode byte, then the operand bytes (rule R52). -/
theorem encode_of_opcodeOf {m : OpcodeMap} {i : Instr} {op : Byte} (h : m.opcodeOf i.handler = some op) :
    encode m i = some (op :: i.operandBytes) := by
  simp [encode, h]

/-- An instruction's opcode byte with its own operand bytes decodes to it, whatever follows. -/
theorem decode_opcode_operandBytes {m : OpcodeMap} {op : Byte} {i : Instr} (h : m.lookup op = some i.handler)
    (rest : List Byte) : decode m (op :: i.operandBytes ++ rest) = .instr i rest := by
  cases i
  case ldaImm v | ldxImm v | ldyImm v => exact decode_of_lookup_imm h rfl v rest
  all_goals exact decode_of_lookup_imp h rfl rest

/-- What decodes to an instruction is the byte its handler is looked up from, its operand bytes, and what is left. -/
theorem bytes_of_decode {m : OpcodeMap} {bytes rest : List Byte} {i : Instr} (h : decode m bytes = .instr i rest) :
    ∃ op, m.lookup op = some i.handler ∧ bytes = op :: i.operandBytes ++ rest := by
  cases bytes with
  | nil => cases h
  | cons op after =>
    cases hl : m.lookup op with
    | none => exact nomatch (decode_of_lookup_none hl after).symm.trans h
    | some hd =>
      cases hf : hd.format with
      | imp =>
        obtain ⟨rfl, rfl⟩ := Decoded.instr.inj ((decode_of_lookup_imp hl hf after).symm.trans h)
        exact ⟨op, by rw [Handler.instr_handler, hl], by simp [Handler.instr_operandBytes_imp hf]⟩
      | imm =>
        cases after with
        | nil => simp [decode, hl, hf] at h
        | cons v after =>
          obtain ⟨rfl, rfl⟩ := Decoded.instr.inj ((decode_of_lookup_imm hl hf v after).symm.trans h)
          exact ⟨op, by rw [Handler.instr_handler, hl], by simp [Handler.instr_operandBytes_imm hf]⟩

/-- A byte is mapped to no handler exactly when no row has it (rule R58). -/
theorem OpcodeMap.lookup_eq_none_iff (m : OpcodeMap) (op : Byte) : m.lookup op = none ↔ op ∉ m.map Prod.fst := by
  induction m with
  | nil => simp [OpcodeMap.lookup]
  | cons row m ih =>
    by_cases h : row.1 = op
    · simp [OpcodeMap.lookup, h]
    · simp [OpcodeMap.lookup, h, ih, Ne.symm h]

end Sys2Proof

namespace Sys2Proof.Machine

/-- Settles O1: a well-formed map gives the handler an opcode byte that looks up to it again, and after that byte the
operand bytes are read as its format says. -/
theorem encodedInstructionDecodesBack : Obligations.EncodedInstructionDecodesBack := by
  unfold Obligations.EncodedInstructionDecodesBack
  intro m hm i _
  obtain ⟨op, hop, hl⟩ := OpcodeMap.exists_opcode hm i.handler
  refine ⟨op :: i.operandBytes, encode_of_opcodeOf hop, ?length, decode_opcode_operandBytes hl⟩
  case length => rw [i.length_eq, List.length_cons, Nat.add_comm]

/-- Settles O2: the bytes read are the looked-up byte and the operand bytes, and the byte is the handler's own. -/
theorem decodedBytesAreTheEncoding : Obligations.DecodedBytesAreTheEncoding := by
  unfold Obligations.DecodedBytesAreTheEncoding
  intro m hm bytes rest i h
  obtain ⟨op, hl, hbytes⟩ := bytes_of_decode h
  exact ⟨op :: i.operandBytes, hbytes, encode_of_opcodeOf (OpcodeMap.opcodeOf_of_lookup hm hl)⟩

/-- Settles O3: thirteen closed words, each decoded by evaluation. -/
theorem tableWordsDecode : Obligations.TableWordsDecode := by
  unfold Obligations.TableWordsDecode
  decide

/-- Settles O4: the unmapped bytes are those in no row, and the rows' bytes are the ten listed. -/
theorem exactlyTenOpcodesAreMapped : Obligations.ExactlyTenOpcodesAreMapped := by
  unfold Obligations.ExactlyTenOpcodesAreMapped
  intro op
  have hrows : (defaultOpcodeMap.map Prod.fst).Perm [0x18, 0x58, 0xA0, 0xA2, 0xA9, 0xB8, 0xBA, 0xC8, 0xD8, 0xE8] := by
    decide
  rw [OpcodeMap.lookup_eq_none_iff, hrows.mem_iff]

end Sys2Proof.Machine
end

section
/-! PROOFS. One pass of the loop: what it runs, what every pass keeps, and the statements that are one pass or one
update of the state. -/

namespace Sys2Proof.Machine

/-! The two passes with a unit left -/

/-- A pass over an unmapped byte ends the call with `UnknownOpcode` (rule R92). -/
theorem loopPass_unmapped {m : OpcodeMap} {s : State} {k : Nat} (hl : s.lifecycle = .defined)
    (hc : s.call = .running (k + 1)) (hm : m.lookup (s.mem.peek s.pc.toNat) = none) :
    loopPass m s = .next (endCall (.unknownOpcode (s.mem.peek s.pc.toNat) s.pc) (afterOpcode s)) := by
  have hb : 0 < s.budget := by simp [State.budget_of_running s _ hc]
  rw [loopPass_pos m s k hc hl, fetchAndRun_pos m s hb, hm]

/-- A pass over a mapped byte runs its handler, with the byte after it (rules R57, R69). -/
theorem loopPass_mapped {m : OpcodeMap} {s : State} {k : Nat} {hd : Handler} (hl : s.lifecycle = .defined)
    (hc : s.call = .running (k + 1)) (hm : m.lookup (s.mem.peek s.pc.toNat) = some hd) :
    loopPass m s = exec (hd.instr (operandByte (afterOpcode s))) (afterOpcode s) := by
  have hb : 0 < s.budget := by simp [State.budget_of_running s _ hc]
  rw [loopPass_pos m s k hc hl, fetchAndRun_pos m s hb, hm]

/-- So it runs the instruction the bytes at PC decode to. -/
theorem loopPass_of_decode {m : OpcodeMap} {s : State} {k : Nat} {i : Instr} {rest : List Byte}
    (hl : s.lifecycle = .defined) (hc : s.call = .running (k + 1)) (h : decode m (bytesAtPc s) = .instr i rest) :
    loopPass m s = exec i (afterOpcode s) := by
  obtain ⟨hd, hm, rfl⟩ := lookup_of_decode h
  exact loopPass_mapped hl hc hm

/-! What the updates of the engine are, written as the fields they change -/

theorem afterOpcode_call_of_running {s : State} {k : Nat} (hc : s.call = .running (k + 1)) :
    (afterOpcode s).call = .running k := by
  rw [afterOpcode_call, State.budget_of_running s _ hc, Nat.add_sub_cancel]

theorem afterOpcode_of_running {s : State} {k : Nat} (hc : s.call = .running (k + 1)) :
    afterOpcode s = { s with pc := s.pc + 1, call := .running k } :=
  congrArg (fun c => { s with pc := s.pc + 1, call := c }) (afterOpcode_call_of_running hc)

theorem endCall_of_budget_zero {s : State} (o : ExecOutcome) (hb : s.budget = 0) :
    endCall o s = { s with call := .returned o 0 } :=
  congrArg (fun k => { s with call := .returned o k }) hb

/-- A step of PC is modulo 2^16 (rules R19, R20). -/
theorem toNat_succ (w : Word) : (w + 1).toNat = (w.toNat + 1) % 65536 := BitVec.toNat_add w 1

/-! What one pass does -/

/-- Settles O7: the pass runs what the bytes decode to, from the state after the opcode fetch. -/
theorem stepRunsTheDecodedInstruction : Obligations.StepRunsTheDecodedInstruction := by
  unfold Obligations.StepRunsTheDecodedInstruction
  intro s k i rest hl hc h _
  exact ⟨loopPass_of_decode hl hc h, afterOpcode_of_running hc⟩

/-- Settles O8: the pass is the opcode fetch and the end of the call, and neither writes a register, a flag or
memory. -/
theorem unknownOpcodeEndsTheCall : Obligations.UnknownOpcodeEndsTheCall := by
  unfold Obligations.UnknownOpcodeEndsTheCall
  intro m s k hl hc hm
  refine ⟨_, loopPass_unmapped hl hc hm, ?_⟩
  simp [State.budget_of_running s _ hc, sameMemory]

/-- Settles O9: after the opcode fetch no unit is left, so the load's operand fetch ends the call and nothing is
written. -/
theorem budgetInsideALoadEndsTheCall : Obligations.BudgetInsideALoadEndsTheCall := by
  unfold Obligations.BudgetInsideALoadEndsTheCall
  intro s i rest hl hc h hlen
  have hb : (afterOpcode s).budget = 0 := by simp [State.budget_of_running s _ hc]
  have hstep : step s = .next (endCall .budgetExhausted (afterOpcode s)) :=
    (loopPass_of_decode hl hc h).trans (exec_imm_zero i _ hlen hb)
  refine ⟨_, hstep, ?_⟩
  simp [State.budget_of_running s _ hc, sameMemory]

/-- Settles O10: the loop's budget test comes before its fetch. -/
theorem budgetZeroCompletesBeforeAnyFetch : Obligations.BudgetZeroCompletesBeforeAnyFetch := by
  unfold Obligations.BudgetZeroCompletesBeforeAnyFetch
  intro s hl hc
  rw [step, loopPass_zero _ s hc hl, endCall_of_budget_zero _ (State.budget_of_running s 0 hc)]

/-- Settles O11: a pass with no call running answers its own state. -/
theorem noCallNoChange : Obligations.NoCallNoChange := by
  unfold Obligations.NoCallNoChange
  exact fun s h => loopPass_notRunning _ s h

/-! An instruction's cost -/

/-- The PC an instruction the budget reaches leaves: past its operand bytes, modulo 2^16 (rules R19, R20). -/
theorem exec_pc {i : Instr} {s t : State} (hle : i.length ≤ s.budget + 1) (h : exec i s = .next t) :
    t.pc.toNat = (s.pc.toNat + i.operandBytes.length) % 65536 := by
  have hlen := i.length_eq
  obtain ⟨h1, he⟩ | ⟨h2, -, he⟩ | ⟨h2, h0, -⟩ := exec_cases i s
  · cases he.symm.trans h
    rw [bodyOf_pc, show i.operandBytes.length = 0 by omega, Nat.add_zero, Nat.mod_eq_of_lt s.pc.isLt]
  · cases he.symm.trans h
    rw [bodyOf_pc, State.spend_pc, State.advance_pc, toNat_succ, show i.operandBytes.length = 1 by omega]
  · omega

/-- A pass whose budget reaches for the instruction at PC runs it to its end: PC and budget move by its length. -/
theorem loopPass_advances {m : OpcodeMap} {s : State} {k : Nat} {i : Instr} {rest : List Byte}
    (hl : s.lifecycle = .defined) (hc : s.call = .running k) (h : decode m (bytesAtPc s) = .instr i rest)
    (hle : i.length ≤ k) :
    ∃ t, exec i (afterOpcode s) = .next t ∧ loopPass m s = .next t ∧
      t.pc.toNat = (s.pc.toNat + i.length) % 65536 ∧ t.call = .running (k - i.length) := by
  have hlen := i.length_eq
  obtain ⟨j, rfl⟩ : ∃ j, k = j + 1 := ⟨k - 1, by omega⟩
  have hj := afterOpcode_call_of_running hc
  obtain ⟨t, he, hcall⟩ := exec_cost i (afterOpcode s) hj hle
  refine ⟨t, he, (loopPass_of_decode hl hc h).trans he, ?pc, hcall⟩
  case pc =>
    rw [exec_pc (by rwa [State.budget_of_running _ _ hj]) he, afterOpcode_pc, toNat_succ, hlen]
    omega

/-- Settles O13: the opcode fetch pays one of the length's units and moves PC one, the handler the rest. -/
theorem stepAdvancesByTheLength : Obligations.StepAdvancesByTheLength := by
  unfold Obligations.StepAdvancesByTheLength
  intro s k i rest hl hc h hle
  obtain ⟨t, -, hstep, hpc, hcall⟩ := loopPass_advances hl hc h hle
  exact ⟨t, hstep, hpc, hcall⟩

/-- The handler of an instruction whose length the budget does not reach ends the call (rules R71 (c), R93). -/
theorem exec_short {i : Instr} {s : State} (h : s.budget + 1 < i.length) :
    exec i s = .next (endCall .budgetExhausted s) := by
  obtain hlen | hlen := length_cases i
  · omega
  · exact exec_imm_zero i s hlen (by omega)

/-- Every handler keeps to its cost (rule R71 (a)). -/
theorem costKept_of_exec {i : Instr} {s t : State} (h : exec i s = .next t) : costKept i s t = true := by
  unfold costKept
  cases hc : s.call with
  | idle => rfl
  | returned o left => rfl
  | running k =>
    have hb := State.budget_of_running s k hc
    by_cases hle : i.length ≤ k + 1
    · obtain ⟨t', he, hcall⟩ := exec_cost i s hc hle
      cases he.symm.trans h
      simp [hcall, Nat.sub_add_cancel hle]
    · have hlt : k + 1 < i.length := Nat.lt_of_not_le hle
      cases (exec_short (by rwa [hb])).symm.trans h
      simp [hlt]

/-- A handler always answers a next state (rule R71). -/
theorem exec_next (i : Instr) (s : State) : ∃ t, exec i s = .next t := by
  obtain ⟨-, he⟩ | ⟨-, -, he⟩ | ⟨-, -, he⟩ := exec_cases i s <;> exact ⟨_, he⟩

/-- So the self-check passes every handler's answer on. -/
theorem checkedExec_eq (i : Instr) (s : State) : checkedExec i s = exec i s := by
  obtain ⟨t, h⟩ := exec_next i s
  simp [checkedExec, h, costKept_of_exec h]

/-- Settles O52: no handler fails the self-check, and what it lets pass is the handler's own answer, by whether the
budget reaches the length. -/
theorem selfCheckNeverFaults : Obligations.SelfCheckNeverFaults := by
  unfold Obligations.SelfCheckNeverFaults
  intro i s
  rw [checkedExec_eq]
  obtain ⟨t, h⟩ := exec_next i s
  refine ⟨rfl, t, h, fun k hc => ⟨fun hle => ?reached, fun hlt => ?short⟩⟩
  case reached =>
    obtain ⟨t', he, hcall⟩ := exec_cost i s hc hle
    cases he.symm.trans h
    exact hcall
  case short =>
    cases (exec_short (by rwa [State.budget_of_running s k hc])).symm.trans h
    exact ⟨_, _, endCall_call _ s⟩

end Sys2Proof.Machine
end

section
/-! PROOFS. The ALU, the loads, the increments, the transfer and the fetch primitives: each one's result and frame. -/

namespace Sys2Proof.Machine

/-! The ALU on unsigned values (rule R77) -/

theorem aluInc_toNat (r : Byte) : (aluInc r).toNat = (r.toNat + 1) % 256 := BitVec.toNat_add r 1

theorem aluLow_toNat (w : Word) : (aluLow w).toNat = w.toNat % 256 := BitVec.toNat_setWidth 8 w

/-- Settles O24: addition and truncation of bit vectors as numbers. -/
theorem aluOperations : Obligations.AluOperations := by
  unfold Obligations.AluOperations
  exact ⟨fun r => ⟨rfl, aluInc_toNat r⟩, aluLow_toNat, rfl⟩

/-- Z after an increment (rules R77, R78). -/
theorem zeroFlag_aluInc (r : Byte) : zeroFlag (aluInc r) = true ↔ r = 0xFF := by
  rw [zeroFlag_iff, ← BitVec.toNat_inj, ← BitVec.toNat_inj, aluInc_toNat]
  have hlt := r.isLt
  change (r.toNat + 1) % 256 = 0 ↔ r.toNat = 255
  omega

/-- N after an increment (rules R77, R78). -/
theorem negativeFlag_aluInc (r : Byte) : negativeFlag (aluInc r) = true ↔ 127 ≤ r.toNat ∧ r.toNat < 255 := by
  rw [negativeFlag_iff, aluInc_toNat]
  have hlt := r.isLt
  omega

/-- Z after the low byte was taken (rules R77, R78). -/
theorem zeroFlag_aluLow (w : Word) : zeroFlag (aluLow w) = true ↔ w.toNat % 256 = 0 := by
  rw [zeroFlag_iff, ← BitVec.toNat_inj, aluLow_toNat]
  rfl

/-- N after the low byte was taken (rules R77, R78). -/
theorem negativeFlag_aluLow (w : Word) : negativeFlag (aluLow w) = true ↔ 128 ≤ w.toNat % 256 := by
  rw [negativeFlag_iff, aluLow_toNat]

/-! The loads -/

/-- Settles O14: the operand fetch, then the write that defines A. -/
theorem ldaLoadsTheAccumulator : Obligations.LdaLoadsTheAccumulator := by
  unfold Obligations.LdaLoadsTheAccumulator
  intro imm s hb
  refine ⟨_, exec_imm_pos (.ldaImm imm) s rfl hb, ?_⟩
  simp [bodyOf, zeroFlag_iff, negativeFlag_iff, sameMemory]

/-- Settles O15: the operand fetch, then the write that defines X. -/
theorem ldxLoadsX : Obligations.LdxLoadsX := by
  unfold Obligations.LdxLoadsX
  intro imm s hb
  refine ⟨_, exec_imm_pos (.ldxImm imm) s rfl hb, ?_⟩
  simp [bodyOf, zeroFlag_iff, negativeFlag_iff, sameMemory]

/-- Settles O16: the operand fetch, then the write that defines Y. -/
theorem ldyLoadsY : Obligations.LdyLoadsY := by
  unfold Obligations.LdyLoadsY
  intro imm s hb
  refine ⟨_, exec_imm_pos (.ldyImm imm) s rfl hb, ?_⟩
  simp [bodyOf, zeroFlag_iff, negativeFlag_iff, sameMemory]

/-- Settles O17: each of the three has length 2, and its operand fetch finds no unit. -/
theorem loadWithoutAUnitWritesNothing : Obligations.LoadWithoutAUnitWritesNothing := by
  unfold Obligations.LoadWithoutAUnitWritesNothing
  intro imm s hb i hi
  have hlen : i.length = 2 := by
    simp only [List.mem_cons, List.not_mem_nil, or_false] at hi
    obtain rfl | rfl | rfl := hi <;> rfl
  rw [exec_imm_zero i s hlen hb, endCall_of_budget_zero _ hb]

/-! The implied forms -/

/-- Settles O18: the write that defines X, of X incremented. -/
theorem inxIncrementsX : Obligations.InxIncrementsX := by
  unfold Obligations.InxIncrementsX
  intro s
  refine ⟨_, exec_imp .inx s rfl, ?_⟩
  simp [bodyOf, aluInc_toNat, zeroFlag_aluInc, negativeFlag_aluInc, sameMemory]

/-- Settles O19: the write that defines Y, of Y incremented. -/
theorem inyIncrementsY : Obligations.InyIncrementsY := by
  unfold Obligations.InyIncrementsY
  intro s
  refine ⟨_, exec_imp .iny s rfl, ?_⟩
  simp [bodyOf, aluInc_toNat, zeroFlag_aluInc, negativeFlag_aluInc, sameMemory]

/-- Settles O20: the write that defines X, of the low byte of SP. -/
theorem tsxTransfersTheLowByte : Obligations.TsxTransfersTheLowByte := by
  unfold Obligations.TsxTransfersTheLowByte
  intro s
  refine ⟨_, exec_imp .tsx s rfl, ?_⟩
  simp [bodyOf, aluLow_toNat, zeroFlag_aluLow, negativeFlag_aluLow, sameMemory]

/-! The fetch primitives -/

/-- Settles O25: the budget test, then the byte at PC, with PC moved and a unit spent. -/
theorem fetchNextByte_spec : Obligations.FetchNextByte := by
  unfold Obligations.FetchNextByte
  intro s
  rw [fetchNextByte_eq]
  refine ⟨fun hb => if_pos hb, fun hb => ⟨_, if_neg hb.ne', ?_⟩⟩
  exact ⟨toNat_succ s.pc, rfl⟩

/-- Settles O26: the budget test, then the byte at PC, with a unit spent. -/
theorem peekByte_spec : Obligations.PeekByte := by
  unfold Obligations.PeekByte
  intro s
  rw [peekByte_eq]
  exact ⟨fun hb => if_pos hb, fun hb => if_neg hb.ne'⟩

/-- Settles O27: the budget test, then the byte at the pointer, which a zero-extended byte is as a number. -/
theorem readIndirect_spec : Obligations.ReadIndirect := by
  unfold Obligations.ReadIndirect
  intro addr s
  have hpointer : ((s.mem.peek addr.toNat).setWidth 16).toNat = (s.mem.peek addr.toNat).toNat :=
    BitVec.toNat_setWidth_of_le (by decide)
  rw [readIndirect_eq, hpointer]
  exact ⟨fun hb => if_pos hb, fun hb => if_neg hb.ne'⟩

end Sys2Proof.Machine
end

section
/-! PROOFS. What every pass keeps, and what no pass reads: invariants and non-interference over the updates a pass is
made of. -/

namespace Sys2Proof.Machine

/-! What every update keeps, every pass keeps -/

/-- A property that the updates a pass is made of keep: a fetch, an instruction's body, the end of a call. -/
structure KeptByUpdates (P : State → Prop) : Prop where
  fetch : ∀ {s}, P s → P s.advance.spend
  body : ∀ {s} (i : Instr), P s → P (bodyOf i s)
  ended : ∀ {s} (o : ExecOutcome), P s → P (endCall o s)

theorem exec_keeps {P : State → Prop} (hP : KeptByUpdates P) {i : Instr} {s t : State} (hs : P s)
    (h : exec i s = .next t) : P t := by
  obtain ⟨-, he⟩ | ⟨-, -, he⟩ | ⟨-, -, he⟩ := exec_cases i s <;> cases he.symm.trans h
  · exact hP.body i hs
  · exact hP.body i (hP.fetch hs)
  · exact hP.ended _ hs

theorem loopPass_keeps {P : State → Prop} (hP : KeptByUpdates P) {m : OpcodeMap} {s t : State} (hs : P s)
    (h : loopPass m s = .next t) : P t := by
  obtain ⟨-, hp⟩ | ⟨-, -, -, hp⟩ | ⟨-, -, hp⟩ | ⟨-, -, -, -, hp⟩ | ⟨-, hd, -, -, -, hp⟩ := loopPass_cases m s
  · cases hp.symm.trans h; exact hs
  · cases hp.symm.trans h
  · cases hp.symm.trans h; exact hP.ended _ hs
  · cases hp.symm.trans h; exact hP.ended _ (hP.fetch hs)
  · exact exec_keeps hP (hP.fetch hs) (hp.symm.trans h)

/-- The fields no update of a pass writes stay what they are in `s`. -/
theorem keptByUpdates_frame (s : State) :
    KeptByUpdates fun t => t.mem = s.mem ∧ t.sp = s.sp ∧ t.b = s.b ∧ t.lifecycle = s.lifecycle where
  fetch h := by simpa using h
  body i h := by simpa using h
  ended o h := by simpa using h

/-- Settles O39: no fetch, no body and no end of a call writes the four. -/
theorem stepWritesNoMemory : Obligations.StepWritesNoMemory := by
  unfold Obligations.StepWritesNoMemory
  exact fun s t h => loopPass_keeps (keptByUpdates_frame s) ⟨rfl, rfl, rfl, rfl⟩ h

/-! The flags a body writes (rules R22, R80) -/

theorem bodyOf_c (i : Instr) (s : State) : (bodyOf i s).c = (s.c && decide (i ≠ .clc)) := by
  cases i <;> simp [bodyOf]

theorem bodyOf_d (i : Instr) (s : State) : (bodyOf i s).d = (s.d && decide (i ≠ .cld)) := by
  cases i <;> simp [bodyOf]

theorem bodyOf_i (i : Instr) (s : State) : (bodyOf i s).i = (s.i && decide (i ≠ .cli)) := by
  cases i <;> simp [bodyOf]

theorem bodyOf_v (i : Instr) (s : State) : (bodyOf i s).v = (s.v && decide (i ≠ .clv)) := by
  cases i <;> simp [bodyOf]

/-- A flag clear writes neither Z nor N (rule R80). -/
theorem bodyOf_zn_of_clear {i : Instr} (h : i ∈ [Instr.clc, .cld, .cli, .clv]) (s : State) :
    (bodyOf i s).z = s.z ∧ (bodyOf i s).n = s.n := by
  simp only [List.mem_cons, List.not_mem_nil, or_false] at h
  obtain rfl | rfl | rfl | rfl := h <;> exact ⟨rfl, rfl⟩

/-- An instruction with an operand is no flag clear. -/
theorem not_clear_of_length {i : Instr} (h : i.length = 2) : i ∉ [Instr.clc, .cld, .cli, .clv] := by
  intro hi
  simp only [List.mem_cons, List.not_mem_nil, or_false] at hi
  obtain rfl | rfl | rfl | rfl := hi <;> cases h

/-- The invariant is kept: the flags it speaks of are only ever cleared, and the rest of it no update writes. -/
theorem keptByUpdates_inv (cfg : Config) : KeptByUpdates (Inv cfg) where
  fetch h := by simpa [Inv_iff] using h
  body i h := by
    rw [Inv_iff] at h ⊢
    obtain ⟨hl, hm, hsp, hc, hi, hd, hb, hv⟩ := h
    simp [bodyOf_c, bodyOf_i, bodyOf_d, bodyOf_v, hl, hm, hsp, hc, hi, hd, hb, hv]
  ended o h := by simpa [Inv_iff] using h

/-- Settles O37: every update a pass is made of keeps the invariant. -/
theorem stepKeepsTheInvariant : Obligations.StepKeepsTheInvariant := by
  unfold Obligations.StepKeepsTheInvariant
  exact fun cfg s t hs h => loopPass_keeps (keptByUpdates_inv cfg) hs h

/-! What one instruction writes -/

/-- What holds of an instruction's body, of its body after the operand fetch, and, where it has an operand, of the end
of the call, holds of what its handler answers. -/
theorem exec_satisfies {Q : State → Prop} {i : Instr} {s : State} (hbody : Q (bodyOf i s))
    (hfetched : Q (bodyOf i s.advance.spend)) (hended : i.length = 2 → Q (endCall .budgetExhausted s)) :
    ∃ t, exec i s = .next t ∧ Q t := by
  obtain ⟨-, he⟩ | ⟨-, -, he⟩ | ⟨hlen, -, he⟩ := exec_cases i s
  · exact ⟨_, he, hbody⟩
  · exact ⟨_, he, hfetched⟩
  · exact ⟨_, he, hended hlen⟩

/-- The flags a body writes of the five, and that a clear writes no other (rules R22, R80). -/
theorem bodyOf_flags (i : Instr) (s : State) :
    (bodyOf i s).b = s.b ∧ (bodyOf i s).c = (s.c && decide (i ≠ .clc)) ∧
      (bodyOf i s).d = (s.d && decide (i ≠ .cld)) ∧ (bodyOf i s).i = (s.i && decide (i ≠ .cli)) ∧
      (bodyOf i s).v = (s.v && decide (i ≠ .clv)) ∧
      (i ∈ [Instr.clc, .cld, .cli, .clv] → (bodyOf i s).z = s.z ∧ (bodyOf i s).n = s.n) :=
  ⟨bodyOf_b i s, bodyOf_c i s, bodyOf_d i s, bodyOf_i i s, bodyOf_v i s, fun hi => bodyOf_zn_of_clear hi s⟩

/-- Settles O40: a body writes of the five flags its own named one alone, the operand fetch none, and a call is ended
by instructions that clear no flag. -/
theorem noFlagIsWrittenAsASideEffect : Obligations.NoFlagIsWrittenAsASideEffect := by
  unfold Obligations.NoFlagIsWrittenAsASideEffect
  intro i s
  refine exec_satisfies ?body ?fetched fun hlen => ?ended
  case body => exact bodyOf_flags i s
  case fetched => exact bodyOf_flags i s.advance.spend
  case ended =>
    have hne := not_clear_of_length hlen
    simp only [List.mem_cons, List.not_mem_nil, or_false, not_or] at hne
    simp [hne]

/-- The registers a body can change (rules R15 to R17). -/
theorem bodyOf_registers (i : Instr) (s : State) :
    ((bodyOf i s).a ≠ s.a → i.handler = .lda) ∧
      ((bodyOf i s).x ≠ s.x → i.handler = .ldx ∨ i.handler = .inx ∨ i.handler = .tsx) ∧
      ((bodyOf i s).y ≠ s.y → i.handler = .ldy ∨ i.handler = .iny) := by
  cases i <;> simp [bodyOf, Instr.handler]

/-- Settles O41: a handler changes the registers its body does, or none. -/
theorem onlyItsInstructionsWriteARegister : Obligations.OnlyItsInstructionsWriteARegister := by
  unfold Obligations.OnlyItsInstructionsWriteARegister
  intro i s
  refine exec_satisfies ?body ?fetched fun _ => ?ended
  case body => exact bodyOf_registers i s
  case fetched => exact bodyOf_registers i s.advance.spend
  case ended => exact ⟨fun h => absurd rfl h, fun h => absurd rfl h, fun h => absurd rfl h⟩

/-! What no pass reads -/

/-- A relation between states that agree on what steers a pass, kept by the fetch and by the end of a call. -/
structure Lockstep (R : State → State → Prop) : Prop where
  steers : ∀ {s s'}, R s s' → s.pc = s'.pc ∧ s.lifecycle = s'.lifecycle ∧ s.mem = s'.mem ∧ s.call = s'.call
  fetch : ∀ {s s'}, R s s' → R s.advance.spend s'.advance.spend
  ended : ∀ {s s'} (o : ExecOutcome), R s s' → R (endCall o s) (endCall o s')

/-- States related in lockstep run an instruction whose body keeps the relation to related states. -/
theorem exec_lockstep {R : State → State → Prop} (hR : Lockstep R) {i : Instr}
    (hbody : ∀ {s s'}, R s s' → R (bodyOf i s) (bodyOf i s')) {s s' t : State} (hs : R s s')
    (h : exec i s = .next t) : ∃ t', exec i s' = .next t' ∧ R t t' := by
  obtain ⟨-, -, -, hcall⟩ := hR.steers hs
  have hb : s.budget = s'.budget := congrArg Call.budget hcall
  obtain ⟨hlen, he⟩ | ⟨hlen, h0, he⟩ | ⟨hlen, h0, he⟩ := exec_cases i s <;> cases he.symm.trans h
  · exact ⟨_, exec_imp i s' hlen, hbody hs⟩
  · exact ⟨_, exec_imm_pos i s' hlen (hb ▸ h0), hbody (hR.fetch hs)⟩
  · exact ⟨_, exec_imm_zero i s' hlen (hb ▸ h0), hR.ended _ hs⟩

/-- States related in lockstep pass through the loop to related states, or are both refused, where the body of what
stands at PC keeps the relation. -/
theorem loopPass_lockstep {R : State → State → Prop} (hR : Lockstep R) {m : OpcodeMap} {s s' : State} (hs : R s s')
    (hbody : ∀ {hd} (v : Byte), m.lookup (s.mem.peek s.pc.toNat) = some hd →
      ∀ {u u'}, R u u' → R (bodyOf (hd.instr v) u) (bodyOf (hd.instr v) u')) :
    (∀ t, loopPass m s = .next t → ∃ t', loopPass m s' = .next t' ∧ R t t') ∧
      (∀ r, loopPass m s = .refused r → loopPass m s' = .refused r) := by
  obtain ⟨hpc, hlife, hmem, hcall⟩ := hR.steers hs
  obtain ⟨hc, hp⟩ | ⟨k, hc, hl, hp⟩ | ⟨hc, hl, hp⟩ | ⟨k, hc, hl, hm, hp⟩ | ⟨k, hd, hc, hl, hm, hp⟩ := loopPass_cases m s
    <;> rw [hp]
  · rw [loopPass_notRunning m s' (hcall ▸ hc)]
    exact ⟨fun t h => ⟨s', rfl, Host.Outcome.next.inj h ▸ hs⟩, fun _ h => nomatch h⟩
  · rw [loopPass_undefined m s' k (hcall ▸ hc) (hlife ▸ hl)]
    exact ⟨fun _ h => (nomatch h), fun _ h => h⟩
  · rw [loopPass_zero m s' (hcall ▸ hc) (hlife ▸ hl)]
    exact ⟨fun t h => ⟨_, rfl, Host.Outcome.next.inj h ▸ hR.ended _ hs⟩, fun _ h => nomatch h⟩
  · rw [loopPass_unmapped (hlife ▸ hl) (hcall ▸ hc) (hmem ▸ hpc ▸ hm), ← hmem, ← hpc]
    exact ⟨fun t h => ⟨_, rfl, Host.Outcome.next.inj h ▸ hR.ended _ (hR.fetch hs)⟩, fun _ h => nomatch h⟩
  · have hop : operandByte (afterOpcode s') = operandByte (afterOpcode s) := by
      simp [operandByte, hmem, hpc]
    rw [loopPass_mapped (hlife ▸ hl) (hcall ▸ hc) (hmem ▸ hpc ▸ hm), hop]
    refine ⟨fun t h => exec_lockstep hR (hbody _ hm) (hR.fetch hs) h, fun r h => ?_⟩
    obtain ⟨t, he⟩ := exec_next (hd.instr (operandByte (afterOpcode s))) (afterOpcode s)
    cases he.symm.trans h

/-- A fetch reads of the call its budget. -/
theorem spend_call_congr {s s' : State} (h : s.call = s'.call) : s.spend.call = s'.spend.call :=
  congrArg (fun c : Call => Call.running (c.budget - 1)) h

/-- So does the end of a call. -/
theorem endCall_call_congr {s s' : State} (o : ExecOutcome) (h : s.call = s'.call) :
    (endCall o s).call = (endCall o s').call :=
  congrArg (fun c : Call => Call.returned o c.budget) h

/-- No body reads a flag: run on states alike but for their flags it answers states alike but for their flags. -/
theorem bodyOf_eraseFlags {s s' : State} (i : Instr) (h : s.eraseFlags = s'.eraseFlags) :
    (bodyOf i s).eraseFlags = (bodyOf i s').eraseFlags := by
  rw [State.eraseFlags_eq_iff] at h ⊢
  obtain ⟨hpc, hsp, ha, hx, hy, hl, hm, hcall⟩ := h
  cases i <;> simp [bodyOf, hpc, hsp, ha, hx, hy, hl, hm, hcall]

theorem lockstep_eraseFlags : Lockstep fun s s' => s.eraseFlags = s'.eraseFlags where
  steers h := by
    obtain ⟨hpc, -, -, -, -, hl, hm, hcall⟩ := (State.eraseFlags_eq_iff _ _).1 h
    exact ⟨hpc, hl, hm, hcall⟩
  fetch h := by
    rw [State.eraseFlags_eq_iff] at h ⊢
    obtain ⟨hpc, hsp, ha, hx, hy, hl, hm, hcall⟩ := h
    exact ⟨congrArg (· + 1) hpc, hsp, ha, hx, hy, hl, hm, spend_call_congr hcall⟩
  ended o h := by
    rw [State.eraseFlags_eq_iff] at h ⊢
    obtain ⟨hpc, hsp, ha, hx, hy, hl, hm, hcall⟩ := h
    exact ⟨hpc, hsp, ha, hx, hy, hl, hm, endCall_call_congr o hcall⟩

/-- Settles O42: states alike but for their flags stay so through every update a pass is made of, and no flag steers a
pass. -/
theorem flagsAreNeverRead : Obligations.FlagsAreNeverRead := by
  unfold Obligations.FlagsAreNeverRead
  intro s s' hs
  obtain ⟨hnext, hrefused⟩ := loopPass_lockstep lockstep_eraseFlags (m := defaultConfig.opcodeMap) hs
    fun v _ => bodyOf_eraseFlags _
  refine ⟨fun t h => ?_, hrefused⟩
  obtain ⟨t', ht', hrel⟩ := hnext t h
  exact ⟨t', ht', hrel.symm⟩

/-- A body writes data only, so what it answers is alike but for data where what it started from is. -/
theorem bodyOf_eraseData {s s' : State} (i : Instr) (h : s.eraseData = s'.eraseData) :
    (bodyOf i s).eraseData = (bodyOf i s').eraseData := by
  rw [State.eraseData_eq_iff] at h ⊢
  simpa using h

theorem lockstep_eraseData : Lockstep fun s s' => s.eraseData = s'.eraseData where
  steers h := (State.eraseData_eq_iff _ _).1 h
  fetch h := by
    rw [State.eraseData_eq_iff] at h ⊢
    obtain ⟨hpc, hl, hm, hcall⟩ := h
    exact ⟨congrArg (· + 1) hpc, hl, hm, spend_call_congr hcall⟩
  ended o h := by
    rw [State.eraseData_eq_iff] at h ⊢
    obtain ⟨hpc, hl, hm, hcall⟩ := h
    exact ⟨hpc, hl, hm, endCall_call_congr o hcall⟩

/-- Settles O43: a body writes data only, so no data reaches what steers a pass. -/
theorem dataNeverSteers : Obligations.DataNeverSteers := by
  unfold Obligations.DataNeverSteers
  intro s s' hs
  obtain ⟨hnext, hrefused⟩ := loopPass_lockstep lockstep_eraseData (m := defaultConfig.opcodeMap) hs
    fun v _ => bodyOf_eraseData _
  refine ⟨fun t h => ?_, hrefused⟩
  obtain ⟨t', ht', hrel⟩ := hnext t h
  exact ⟨t', ht', hrel.symm⟩

/-- `s'` is `s` but for its SP, which is `w` in place of `sp`. -/
def SpReplaced (sp w : Word) (s s' : State) : Prop := s.sp = sp ∧ s' = s.setSp w

theorem lockstep_spReplaced (sp w : Word) : Lockstep (SpReplaced sp w) where
  steers h := by obtain ⟨-, rfl⟩ := h; exact ⟨rfl, rfl, rfl, rfl⟩
  fetch h := by obtain ⟨hsp, rfl⟩ := h; exact ⟨hsp, rfl⟩
  ended o h := by obtain ⟨hsp, rfl⟩ := h; exact ⟨hsp, rfl⟩

/-- TSX reads the low byte of SP (rule R86), and no other body reads SP. -/
theorem bodyOf_setSp {i : Instr} {s : State} {w : Word} (h : i = .tsx → aluLow w = aluLow s.sp) :
    bodyOf i (s.setSp w) = (bodyOf i s).setSp w := by
  cases i
  case tsx => simp only [bodyOf, State.setSp_sp, h rfl]; rfl
  all_goals rfl

/-- A handler makes TSX only if it is TSX's. -/
theorem handler_eq_tsx_of_instr {hd : Handler} {v : Byte} (h : hd.instr v = .tsx) : hd = .tsx := by
  rw [← Handler.instr_handler hd v, h]; rfl

/-- Settles O44: a pass passes SP on, and its one reader takes the low byte. -/
theorem stackPointerHighByteIsInert : Obligations.StackPointerHighByteIsInert := by
  unfold Obligations.StackPointerHighByteIsInert
  intro s w hw
  have hlow : w.toNat % 256 = s.sp.toNat % 256 → aluLow w = aluLow s.sp := fun h =>
    BitVec.eq_of_toNat_eq (by rw [aluLow_toNat, aluLow_toNat, h])
  obtain ⟨hnext, hrefused⟩ := loopPass_lockstep (lockstep_spReplaced s.sp w) (m := defaultConfig.opcodeMap)
    (show SpReplaced s.sp w s (s.setSp w) from ⟨rfl, rfl⟩) <| by
      rintro hd v hm u _ ⟨hsp, rfl⟩
      refine ⟨by rw [bodyOf_sp, hsp], bodyOf_setSp fun hi => ?_⟩
      rw [hsp]
      exact hw.elim hlow fun hne => absurd (hm.trans (congrArg some (handler_eq_tsx_of_instr hi))) hne
  refine ⟨fun t h => ?_, hrefused⟩
  obtain ⟨t', ht', -, rfl⟩ := hnext t h
  exact ht'

end Sys2Proof.Machine
end

section
/-! PROOFS. The rest of the family of 20_memory.md: the one form of memory. -/

namespace Sys2Proof.Machine

/-- A memory in canonical form has its first cell where it first reads other than 0x00. -/
theorem Memory.peek_head (cell : Host.Cell) (m : Memory) : Memory.peek (cell :: m) cell.1 = cell.2 := by
  simp [Memory.peek]

/-- Past its first cell's address a memory reads as its tail. -/
theorem Memory.peek_tail {cell : Host.Cell} (m : Memory) {addr : Nat} (hne : addr ≠ cell.1) :
    Memory.peek (cell :: m) addr = m.peek addr := by
  simp [Memory.peek, hne]

/-- Two memories in canonical form that read the same have no first cell above the other's. -/
theorem Memory.head_le {lo lo' : Nat} {cell cell' : Host.Cell} {m m' : Memory}
    (h : Memory.wfFrom lo (cell :: m) = true) (h' : Memory.wfFrom lo' (cell' :: m') = true)
    (hread : ∀ addr, Memory.peek (cell :: m) addr = Memory.peek (cell' :: m') addr) : cell'.1 ≤ cell.1 := by
  obtain ⟨⟨-, -, hne⟩, -⟩ := (Memory.wfFrom_cons_iff ..).1 h
  obtain ⟨⟨-, hin, hne'⟩, htail⟩ := (Memory.wfFrom_cons_iff ..).1 h'
  by_contra hlt
  have habove : Memory.wfFrom cell'.1 (cell' :: m') = true :=
    (Memory.wfFrom_cons_iff ..).2 ⟨⟨le_rfl, hin, hne'⟩, htail⟩
  exact hne ((Memory.peek_head cell m).symm.trans ((hread _).trans (Memory.peek_below _ habove (Nat.lt_of_not_le hlt))))

/-- A memory in canonical form that reads 0x00 everywhere lists nothing. -/
theorem Memory.eq_nil_of_peek {lo : Nat} {m : Memory} (h : Memory.wfFrom lo m = true)
    (hread : ∀ addr, m.peek addr = 0) : m = [] := by
  cases m with
  | nil => rfl
  | cons cell m =>
    obtain ⟨⟨-, -, hne⟩, -⟩ := (Memory.wfFrom_cons_iff ..).1 h
    exact absurd ((Memory.peek_head cell m).symm.trans (hread _)) hne

/-- Two memories in canonical form that read the same everywhere are the same list. -/
theorem Memory.ext_from {lo lo' : Nat} {m m' : Memory} (h : Memory.wfFrom lo m = true)
    (h' : Memory.wfFrom lo' m' = true) (hread : ∀ addr, m.peek addr = m'.peek addr) : m = m' := by
  induction m generalizing lo lo' m' with
  | nil => exact (Memory.eq_nil_of_peek h' fun addr => (hread addr).symm).symm
  | cons cell m ih =>
    cases m' with
    | nil => exact Memory.eq_nil_of_peek h hread
    | cons cell' m' =>
      have hsame : cell.1 = cell'.1 :=
        le_antisymm (Memory.head_le h' h fun addr => (hread addr).symm) (Memory.head_le h h' hread)
      have hcell : cell = cell' := by
        refine Prod.ext hsame ?_
        rw [← Memory.peek_head cell m, hread, hsame, Memory.peek_head]
      subst hcell
      obtain ⟨-, htail⟩ := (Memory.wfFrom_cons_iff ..).1 h
      obtain ⟨-, htail'⟩ := (Memory.wfFrom_cons_iff ..).1 h'
      rw [ih htail htail' fun addr => ?tails]
      case tails =>
        by_cases haddr : addr = cell.1
        · rw [Memory.peek_below m htail (by omega), Memory.peek_below m' htail' (by omega)]
        · rw [← Memory.peek_tail m haddr, hread, Memory.peek_tail m' haddr]

/-- A port's write that answers was inside the address space and set the cell (rule R34). -/
theorem memWrite_ok {m m' : Memory} {addr : Nat} {r : Byte} (h : memWrite m addr r = .ok m') :
    addr < 65536 ∧ m' = m.poke addr r := by
  by_cases hin : addr < 65536
  · exact ⟨hin, (Except.ok.inj ((memWrite_inside m r hin).symm.trans h)).symm⟩
  · cases (memWrite_outside m r (Nat.le_of_not_lt hin)).symm.trans h

/-- Settles O30: a cell set inside the address space keeps the form, the cleared memory is the empty list, and the form
is read off the cells, first one first. -/
theorem memoryHasOneForm : Obligations.MemoryHasOneForm := by
  unfold Obligations.MemoryHasOneForm
  refine ⟨fun m m' addr r hwf h => ?write, fun m => ⟨Memory.wf_clear m, Memory.peek_nil⟩,
    fun m m' hwf hwf' => Memory.ext_from hwf hwf'⟩
  case write =>
    obtain ⟨hin, rfl⟩ := memWrite_ok h
    exact Memory.wf_poke m addr r hin hwf

end Sys2Proof.Machine
end

section
/-! PROOFS. The whole `execute` call: it ends with a result that accounts for its budget, it is the run of its steps,
and it can be split where it completes. -/

namespace Sys2Proof.Machine

/-! How a call ends -/

/-- What a result says of a call with `budget` units that ends at `pc`: nothing is left after `Completed` and
`BudgetExhausted`, and `UnknownOpcode` names an unmapped byte and the address before `pc` (rules R62, R92). No call ends
with `OutOfRange` (rule R94). -/
def Accounted (m : OpcodeMap) (budget : Nat) (pc : Word) (left : Nat) : ExecOutcome → Prop
  | .completed => left = 0
  | .budgetExhausted => left = 0
  | .unknownOpcode op addr => left < budget ∧ m.lookup op = none ∧ pc = addr + 1
  | .outOfRange => False

theorem Accounted.mono {m : OpcodeMap} {j k left : Nat} {pc : Word} {o : ExecOutcome} (hle : j ≤ k)
    (h : Accounted m j pc left o) : Accounted m k pc left o := by
  cases o with
  | completed => exact h
  | budgetExhausted => exact h
  | unknownOpcode op addr =>
    obtain ⟨hlt, hrest⟩ := h
    exact ⟨hlt.trans_le hle, hrest⟩
  | outOfRange => exact h

theorem Accounted.left_le {m : OpcodeMap} {budget left : Nat} {pc : Word} {o : ExecOutcome}
    (h : Accounted m budget pc left o) : left ≤ budget := by
  cases o with
  | completed => exact (show left = 0 from h) ▸ Nat.zero_le _
  | budgetExhausted => exact (show left = 0 from h) ▸ Nat.zero_le _
  | unknownOpcode op addr => exact h.1.le
  | outOfRange => exact h.elim

/-- The call has returned, with a result accounted for. -/
def ReturnedAccounted (m : OpcodeMap) (budget : Nat) (t : State) : Prop :=
  ∃ o left, t.call = .returned o left ∧ Accounted m budget t.pc left o

/-- A pass of a running call answers, and spends a unit or returns with a result accounted for (rules R69 to R72). -/
theorem loopPass_running (m : OpcodeMap) {s : State} {k : Nat} (hl : s.lifecycle = .defined)
    (hc : s.call = .running k) :
    ∃ t, loopPass m s = .next t ∧ ((∃ j < k, t.call = .running j) ∨ ReturnedAccounted m k t) := by
  cases k with
  | zero => exact ⟨_, loopPass_zero m s hc hl, .inr ⟨_, _, endCall_call _ s, State.budget_of_running s 0 hc⟩⟩
  | succ k =>
    have hb := State.budget_of_running s _ hc
    have hafter := afterOpcode_call_of_running hc
    cases hm : m.lookup (s.mem.peek s.pc.toNat) with
    | none =>
      refine ⟨_, loopPass_unmapped hl hc hm, .inr ⟨_, _, endCall_call _ _, ?_, hm, rfl⟩⟩
      rw [State.budget_of_running _ k hafter]
      exact Nat.lt_succ_self k
    | some hd =>
      rw [loopPass_mapped hl hc hm]
      generalize hd.instr (operandByte (afterOpcode s)) = i
      have hlen := i.length_eq
      by_cases hle : i.length ≤ k + 1
      · obtain ⟨t, he, hcall⟩ := exec_cost i _ hafter hle
        exact ⟨t, he, .inl ⟨_, by omega, hcall⟩⟩
      · have hafterb := State.budget_of_running _ k hafter
        have hk : k = 0 := by have := length_cases i; omega
        exact ⟨_, exec_short (by omega), .inr ⟨_, _, endCall_call _ _, hafterb.trans hk⟩⟩

/-- The loop of a running call returns within one pass more than its budget, with a result accounted for (rule R72). -/
theorem runCall_returns (m : OpcodeMap) (passes : Nat) {s : State} {k : Nat} (hl : s.lifecycle = .defined)
    (hc : s.call = .running k) (hlt : k < passes) :
    ∃ u, runCall m passes s = .next u ∧ ReturnedAccounted m k u := by
  induction passes generalizing s k with
  | zero => omega
  | succ passes ih =>
    obtain ⟨t, hp, ⟨j, hj, hcall⟩ | ⟨o, left, hcall, hacc⟩⟩ := loopPass_running m hl hc
    · rw [runCall_step m passes s t k hc hp]
      obtain ⟨u, hrun, o, left, hu, hacc⟩ := ih ((loopPass_lifecycle hp).trans hl) hcall (by omega)
      exact ⟨u, hrun, o, left, hu, hacc.mono hj.le⟩
    · rw [runCall_step m passes s t k hc hp]
      exact ⟨t, runCall_returned m passes t o left hcall, o, left, hcall, hacc⟩

/-- Passes past one more than the budget do nothing. -/
theorem runCall_passes_irrelevant (m : OpcodeMap) {p q : Nat} {s : State} {k : Nat} (hl : s.lifecycle = .defined)
    (hc : s.call = .running k) (hp : k < p) (hq : k < q) : runCall m p s = runCall m q s := by
  induction p generalizing q s k with
  | zero => omega
  | succ p ih =>
    obtain ⟨q, rfl⟩ : ∃ q', q = q' + 1 := ⟨q - 1, by omega⟩
    obtain ⟨t, hpass, ⟨j, hj, hcall⟩ | ⟨o, left, hcall, -⟩⟩ := loopPass_running m hl hc
      <;> rw [runCall_step m p s t k hc hpass, runCall_step m q s t k hc hpass]
    · exact ih ((loopPass_lifecycle hpass).trans hl) hcall (by omega) (by omega)
    · rw [runCall_returned m p t o left hcall, runCall_returned m q t o left hcall]

/-- The loop leaves the memory it was lent as it is (rule R38). -/
theorem runCall_mem {m : OpcodeMap} {passes : Nat} {s u : State} (h : runCall m passes s = .next u) : u.mem = s.mem :=
  (runCall_keeps _ m (fun _ _ => loopPass_keeps (keptByUpdates_frame s)) passes s u ⟨rfl, rfl, rfl, rfl⟩ h).1

/-- The whole call, in one statement: on a reset core its loop returns with a result accounted for, and the host is
handed that result and the memory it gave. -/
theorem executeCall_answers (cfg : Config) (k : Nat) (m : Memory) {s : State} (hl : s.lifecycle = .defined) :
    ∃ u o left, runCall cfg.opcodeMap (k + 1) (beginCall k m s) = .next u ∧ u.call = .returned o left ∧ u.mem = m ∧
      Accounted cfg.opcodeMap k u.pc left o ∧ executeCall cfg k m s = .next (u.handBack, .executed o left m) := by
  obtain ⟨u, hrun, o, left, hcall, hacc⟩ :=
    runCall_returns cfg.opcodeMap (k + 1) (s := beginCall k m s) hl (beginCall_call k m s) (Nat.lt_succ_self k)
  have hmem : u.mem = m := runCall_mem hrun
  exact ⟨u, o, left, hrun, hcall, hmem, hacc, hmem ▸ executeCall_of_run cfg k left m s u o hl hrun hcall⟩

/-- Settles O45: the loop returns, and what it returns leaves no more than was given. -/
theorem executeAlwaysEnds : Obligations.ExecuteAlwaysEnds := by
  unfold Obligations.ExecuteAlwaysEnds
  intro cfg k m s hl hin
  obtain ⟨u, o, left, -, -, -, hacc, hex⟩ := executeCall_answers cfg k m hl
  exact ⟨u.handBack, o, left, (performOp_execute cfg k m s hin).trans hex, hacc.left_le, u.handBack_call⟩

/-- Settles O46: what the call answers is the one result its loop returns, accounted for. -/
theorem nothingLeftUnlessUnknownOpcode : Obligations.NothingLeftUnlessUnknownOpcode := by
  unfold Obligations.NothingLeftUnlessUnknownOpcode
  intro cfg k left m m' s t o h
  obtain ⟨hl, hin⟩ := performOp_execute_next cfg k m s t _ h
  obtain ⟨u, o', left', -, -, -, hacc, hex⟩ := executeCall_answers cfg k m hl
  cases (hex.symm.trans (performOp_execute cfg k m s hin).symm).trans h
  refine ⟨?none, ?unknown⟩
  case none => rintro (rfl | rfl) <;> exact hacc
  case unknown => rintro op addr rfl; exact hacc

/-- Settles O48: the one pass of such a call is the loop's budget test. -/
theorem zeroBudgetDoesNoWork : Obligations.ZeroBudgetDoesNoWork := by
  unfold Obligations.ZeroBudgetDoesNoWork
  intro cfg m s hl hin
  have hrun : runCall cfg.opcodeMap 1 (beginCall 0 m s) = .next (endCall .completed (beginCall 0 m s)) :=
    runCall_step cfg.opcodeMap 0 _ _ 0 (beginCall_call 0 m s) (loopPass_zero _ _ (beginCall_call 0 m s) hl)
  rw [performOp_execute cfg 0 m s hin, executeCall_of_run cfg 0 0 m s _ .completed hl hrun (endCall_call _ _)]
  rfl

/-- Settles O53: the first pass runs the instruction and spends the budget to its end, the second is the loop's budget
test. -/
theorem budgetOfOneInstructionRunsIt : Obligations.BudgetOfOneInstructionRunsIt := by
  unfold Obligations.BudgetOfOneInstructionRunsIt
  intro m s i rest hl hin h
  have hbegin := beginCall_call i.length m s
  obtain ⟨t, he, hpass, hpc, hcall⟩ := loopPass_advances (s := beginCall i.length m s) hl hbegin h le_rfl
  rw [Nat.sub_self] at hcall
  have hdone : loopPass defaultOpcodeMap t = .next (endCall .completed t) :=
    loopPass_zero _ t hcall ((loopPass_lifecycle hpass).trans hl)
  have hrun : runCall defaultOpcodeMap (i.length + 1) (beginCall i.length m s) = .next (endCall .completed t) := by
    rw [runCall_step _ _ _ t _ hbegin hpass, i.length_eq, Nat.add_comm, runCall_step _ _ t _ 0 hcall hdone]
    exact runCall_returned _ _ _ _ _ (endCall_call .completed t)
  have hmem : t.mem = m := runCall_mem (u := endCall .completed t) hrun
  refine ⟨t, he, ?completed, hpc⟩
  case completed =>
    have hret : (endCall .completed t).call = .returned .completed 0 :=
      congrArg (Call.returned .completed) (State.budget_of_running t 0 hcall)
    rw [CompletedRun, performOp_execute _ _ _ _ hin, executeCall_of_run defaultConfig _ 0 m s _ .completed hl hrun hret,
      endCall_mem, hmem]
    rfl

/-! The call as a run of steps -/

/-- A run stays where a step changes nothing. -/
theorem core_run_fixed (n : Nat) {s : State} (h : step s = .next s) : Sys2Proof.core.run n s = .next s := by
  induction n with
  | zero => rfl
  | succ n ih => exact (core_run_succ n s s h).trans ih

/-- The loop does nothing where no call runs (rule R106). -/
theorem runCall_notRunning (m : OpcodeMap) (passes : Nat) {s : State} (h : ∀ k, s.call ≠ .running k) :
    runCall m passes s = .next s := by
  cases passes with
  | zero => rfl
  | succ passes =>
    cases hc : s.call with
    | idle => simp [runCall, hc]
    | running k => exact absurd hc (h k)
    | returned o left => exact runCall_returned m _ s o left hc

/-- Where the loop answers, the run of as many steps answers the same: with no call running both stay (rule R106). -/
theorem core_run_of_runCall {n : Nat} {s u : State} (h : runCall defaultConfig.opcodeMap n s = .next u) :
    Sys2Proof.core.run n s = .next u := by
  induction n generalizing s with
  | zero => cases h; rfl
  | succ n ih =>
    by_cases hr : ∃ k, s.call = .running k
    · obtain ⟨k, hc⟩ := hr
      cases hp : loopPass defaultConfig.opcodeMap s with
      | next t =>
        rw [runCall_step _ n s t k hc hp] at h
        exact (core_run_succ n s t hp).trans (ih h)
      | fault f => simp [runCall, hc, hp] at h
      | refused f => simp [runCall, hc, hp] at h
    · have hstep : step s = .next s := loopPass_notRunning _ s fun k hc => hr ⟨k, hc⟩
      cases (runCall_notRunning _ (n + 1) fun k hc => hr ⟨k, hc⟩).symm.trans h
      exact core_run_fixed _ hstep

/-- Settles O54: the loop returns within one pass more than the budget, and its passes are steps. -/
theorem executeIsTheRunOfItsSteps : Obligations.ExecuteIsTheRunOfItsSteps := by
  unfold Obligations.ExecuteIsTheRunOfItsSteps
  intro k m s hl hin
  obtain ⟨u, o, left, hrun, hcall, hmem, -, hex⟩ := executeCall_answers defaultConfig k m hl
  refine ⟨u, o, left, core_run_of_runCall hrun, hcall, ?_⟩
  rw [performOp_execute _ _ _ _ hin, hex, hmem]

/-! A call split where it completes -/

/-- The state with `k` units more in its running call. -/
def State.addBudget (k : Nat) (s : State) : State := s.setCall (.running (s.budget + k))

theorem addBudget_call {s : State} {j : Nat} (k : Nat) (hc : s.call = .running j) :
    (s.addBudget k).call = .running (j + k) :=
  congrArg (fun b => Call.running (b + k)) (State.budget_of_running s j hc)

/-- A fetch with a unit left spends one of the call's own units. -/
theorem fetch_addBudget {s : State} (k : Nat) (hb : 0 < s.budget) :
    (s.addBudget k).advance.spend = s.advance.spend.addBudget k :=
  congrArg (fun b => (s.advance).setCall (.running b)) (Nat.sub_add_comm hb)

/-- No body reads or writes the budget. -/
theorem bodyOf_addBudget (i : Instr) (k : Nat) (s : State) : bodyOf i (s.addBudget k) = (bodyOf i s).addBudget k := by
  cases i <;> rfl

/-- A handler that leaves the call running does the same with more units. -/
theorem exec_addBudget {i : Instr} {s t : State} {j : Nat} (k : Nat) (h : exec i s = .next t)
    (ht : t.call = .running j) : exec i (s.addBudget k) = .next (t.addBudget k) := by
  obtain ⟨hlen, he⟩ | ⟨hlen, hb, he⟩ | ⟨-, -, he⟩ := exec_cases i s <;> cases he.symm.trans h
  · rw [exec_imp i _ hlen, bodyOf_addBudget]
  · have hb' : 0 < (s.addBudget k).budget := Nat.add_pos_left hb k
    rw [exec_imm_pos i _ hlen hb', fetch_addBudget k hb, bodyOf_addBudget]
  · cases ht

/-- So does a pass. -/
theorem loopPass_addBudget {m : OpcodeMap} {s t : State} {i j : Nat} (k : Nat) (hl : s.lifecycle = .defined)
    (hs : s.call = .running i) (h : loopPass m s = .next t) (ht : t.call = .running j) :
    loopPass m (s.addBudget k) = .next (t.addBudget k) := by
  cases i with
  | zero => cases (loopPass_zero m s hs hl).symm.trans h; cases ht
  | succ i =>
    cases hm : m.lookup (s.mem.peek s.pc.toNat) with
    | none => cases (loopPass_unmapped hl hs hm).symm.trans h; cases ht
    | some hd =>
      have hs' : (s.addBudget k).call = .running (i + k + 1) := by
        rw [addBudget_call k hs, Nat.add_right_comm]
      have hb : 0 < s.budget := by simp [State.budget_of_running s _ hs]
      have hfetch : afterOpcode (s.addBudget k) = (afterOpcode s).addBudget k := fetch_addBudget k hb
      rw [loopPass_mapped (s := s.addBudget k) hl hs' hm, hfetch]
      exact exec_addBudget k ((loopPass_mapped hl hs hm).symm.trans h) ht

/-- A pass completes the call only at budget 0 (rules R69, R73). -/
theorem budget_zero_of_completed {m : OpcodeMap} {s t : State} {j left : Nat} (hc : s.call = .running j)
    (h : loopPass m s = .next t) (ht : t.call = .returned .completed left) : j = 0 := by
  obtain ⟨hn, -⟩ | ⟨-, -, -, hp⟩ | ⟨h0, -, -⟩ | ⟨-, -, -, -, hp⟩ | ⟨-, hd, -, -, -, hp⟩ := loopPass_cases m s
  · exact absurd hc (hn j)
  · cases hp.symm.trans h
  · exact Call.running.inj (hc.symm.trans h0)
  · cases hp.symm.trans h; cases ht
  · obtain ⟨-, he⟩ | ⟨-, -, he⟩ | ⟨-, -, he⟩ := exec_cases (hd.instr _) (afterOpcode s)
      <;> cases he.symm.trans (hp.symm.trans h)
    · cases (bodyOf_call _ _).symm.trans ht
    · cases (bodyOf_call _ _).symm.trans ht
    · cases ht

/-- Where a loop completes, the loop with `k` units more goes on from there with those. -/
theorem runCall_addBudget {m : OpcodeMap} {passes : Nat} {s u : State} {j : Nat} (k : Nat)
    (hl : s.lifecycle = .defined) (hc : s.call = .running j) (hrun : runCall m passes s = .next u)
    (hu : u.call = .returned .completed 0) {p : Nat} (hp : j + k < p) :
    runCall m p (s.addBudget k) = runCall m (k + 1) (u.setCall (.running k)) := by
  induction passes generalizing s j p with
  | zero => cases hrun; cases hc.symm.trans hu
  | succ passes ih =>
    obtain ⟨t, hpass, hstop⟩ := loopPass_running m hl hc
    rw [runCall_step m passes s t j hc hpass] at hrun
    obtain ⟨i, hi, hcall⟩ | ⟨o, left, hcall, hacc⟩ := hstop
    · obtain ⟨p, rfl⟩ : ∃ p', p = p' + 1 := ⟨p - 1, by omega⟩
      rw [runCall_step m p _ _ _ (addBudget_call k hc) (loopPass_addBudget k hl hc hpass hcall)]
      exact ih ((loopPass_lifecycle hpass).trans hl) hcall hrun (by omega)
    · cases (runCall_returned m passes t o left hcall).symm.trans hrun
      obtain rfl := budget_zero_of_completed hc hpass hu
      cases (loopPass_zero m s hc hl).symm.trans hpass
      have hs : s.addBudget k = s.setCall (.running k) := by
        rw [State.addBudget, State.budget_of_running s 0 hc, Nat.zero_add]
      rw [hs]
      exact runCall_passes_irrelevant m hl (State.setCall_call s _) (by omega) (Nat.lt_succ_self k)

/-- A call that completes leaves the core its loop completed in, on the memory it was given. -/
theorem run_of_completedRun {cfg : Config} {j : Nat} {m : Memory} {s t : State} (h : CompletedRun cfg j m s t) :
    s.lifecycle = .defined ∧ inCall s = false ∧ ∃ u, runCall cfg.opcodeMap (j + 1) (beginCall j m s) = .next u ∧
      u.call = .returned .completed 0 ∧ u.mem = m ∧ t = u.handBack := by
  obtain ⟨hl, hin⟩ := performOp_execute_next cfg j m s t _ h
  obtain ⟨-, u, o, left, hrun, hcall, rfl, hr⟩ := executeCall_next ((performOp_execute cfg j m s hin).symm.trans h)
  obtain ⟨rfl, rfl, rfl⟩ := HostReply.executed.inj hr
  exact ⟨hl, hin, u, hrun, hcall, rfl, rfl⟩

/-- Settles O47: the loop with the larger budget reaches where the call completed with the rest of it, which is where
the second call begins. -/
theorem completedCallsCompose : Obligations.CompletedCallsCompose := by
  unfold Obligations.CompletedCallsCompose
  intro cfg j k m s t h
  obtain ⟨hl, hin, u, hrun, hcall, hmem, rfl⟩ := run_of_completedRun h
  have hul : u.handBack.lifecycle = .defined := (runCall_lifecycle hrun).trans hl
  have hbegin : beginCall k m u.handBack = u.setCall (.running k) := by rw [← hmem]; rfl
  have hloop : runCall cfg.opcodeMap (j + k + 1) (beginCall (j + k) m s) =
      runCall cfg.opcodeMap (k + 1) (beginCall k m u.handBack) :=
    hbegin ▸ runCall_addBudget (s := beginCall j m s) k hl (beginCall_call j m s) hrun hcall (Nat.lt_succ_self _)
  rw [performOp_execute _ _ _ _ hin, performOp_execute _ _ _ _ rfl]
  simp only [executeCall, hl, hul, hloop]

end Sys2Proof.Machine
end

section
/-! PROOFS. The host's operations and its session: what each act leaves in the core and in the memory. -/

namespace Sys2Proof.Machine

/-! Refusals -/

/-- Settles O51: every operation asks first whether a call runs. -/
theorem noHostMoveDuringACall : Obligations.NoHostMoveDuringACall := by
  unfold Obligations.NoHostMoveDuringACall
  intro cfg o s k hc
  exact performOp_inCall cfg o s (by simp [inCall, hc])

/-- An operation that answers was performed with no call running (rule R115). -/
theorem inCall_false_of_next {cfg : Config} {o : HostOp} {s t : State} {r : HostReply}
    (h : performOp cfg o s = .next (t, r)) : inCall s = false := by
  cases hi : inCall s with
  | false => rfl
  | true => cases (performOp_inCall cfg o s hi).symm.trans h

/-- In a call there is a call running. -/
theorem call_of_inCall {s : State} (h : inCall s = true) : ∃ k, s.call = .running k := by
  cases hc : s.call with
  | running k => exact ⟨k, rfl⟩
  | idle => simp [inCall, hc] at h
  | returned o left => simp [inCall, hc] at h

/-- Settles O12: the call, the observation and the pass test the lifecycle, the reset does not. -/
theorem neverResetCoreIsRefused : Obligations.NeverResetCoreIsRefused := by
  unfold Obligations.NeverResetCoreIsRefused
  intro cfg s hl
  refine ⟨fun hin => ⟨fun k m => ?execute, ?observe, fun m => ?reset⟩, fun hin => ?pass⟩
  case execute => simp [performOp_execute cfg k m s hin, executeCall, hl]
  case observe => simp [performOp, hin, hostObserve, hl]
  case reset => exact ⟨_, _, performOp_reset cfg m s hin, rfl⟩
  case pass =>
    obtain ⟨k, hc⟩ := call_of_inCall hin
    exact loopPass_undefined _ s k hc hl

/-! Reset -/

/-- The invariant holds of what a reset leaves. -/
theorem inv_resetWith (cfg : Config) : Inv cfg (State.resetWith cfg) := ⟨rfl, rfl, rfl, rfl⟩

/-- Settles O35: reset's values are the invariant's, and its one state under the default parameters is `State.reset`. -/
theorem resetStateHasTheInvariant : Obligations.ResetStateHasTheInvariant := by
  unfold Obligations.ResetStateHasTheInvariant
  exact ⟨inv_resetWith, fun m s hin => ⟨[], performOp_reset defaultConfig m s hin⟩, rfl, rfl⟩

/-- Settles O36: the reset hands back the empty list of cells, the first pass of a call on it finds the byte 0x00, and
the call has returned. -/
theorem nothingLoadedIsUnknownOpcode : Obligations.NothingLoadedIsUnknownOpcode := by
  unfold Obligations.NothingLoadedIsUnknownOpcode
  intro cfg k m s hin hzero
  have hpass := loopPass_unmapped (s := beginCall (k + 1) [] (State.resetWith cfg)) rfl
    (beginCall_call (k + 1) [] (State.resetWith cfg)) hzero
  have hrun := (runCall_step cfg.opcodeMap (k + 1) _ _ (k + 1) (beginCall_call _ _ _) hpass).trans
    (runCall_returned cfg.opcodeMap (k + 1) _ _ k (endCall_call _ _))
  exact ⟨_, [], _, performOp_reset cfg m s hin,
    (performOp_execute cfg _ _ _ (inCall_resetWith cfg)).trans
      (executeCall_of_run cfg (k + 1) k [] _ _ _ rfl hrun (endCall_call _ _)), rfl⟩

/-! Memory is lent for one call -/

/-- A call begins the same whatever stands in the place of the memory lent. -/
theorem executeCall_setMem (cfg : Config) (k : Nat) (m other : Memory) (s : State) :
    executeCall cfg k m (s.setMem other) = executeCall cfg k m s := by
  have hbegin : beginCall k m (s.setMem other) = beginCall k m s := rfl
  simp only [executeCall, State.setMem_lifecycle, hbegin]

/-- Settles O55: a reset makes its state from the configuration alone and a call begins on the memory it is given; both
end in a core that holds none. -/
theorem memoryIsLentForOneCall : Obligations.MemoryIsLentForOneCall := by
  unfold Obligations.MemoryIsLentForOneCall
  intro cfg o s other hin hop
  have hin' : inCall (s.setMem other) = false := hin
  obtain ⟨m, rfl⟩ | ⟨k, m, rfl⟩ := hop
  · rw [performOp_reset cfg m s hin, performOp_reset cfg m _ hin']
    exact ⟨rfl, fun t r h => by cases h; rfl⟩
  · rw [performOp_execute cfg k m s hin, performOp_execute cfg k m _ hin']
    refine ⟨executeCall_setMem cfg k m other s, fun t r h => ?_⟩
    obtain ⟨-, u, -, -, -, -, rfl, -⟩ := executeCall_next h
    exact u.handBack_mem

/-! What each act of a session leaves -/

/-- A reset of the session leaves the reset core and the cleared memory. -/
theorem sessionAct_reset_next {cfg : Config} {g h : Session} {r : HostReply}
    (ha : sessionAct cfg .reset g = .next (h, r)) : h.core = State.resetWith cfg ∧ h.memory = [] := by
  obtain ⟨hop, hmem⟩ := (sessionAct_next cfg _ g h r).1 ha
  obtain ⟨core, memory⟩ := h
  cases (performOp_reset cfg g.memory g.core (inCall_false_of_next hop)).symm.trans hop
  exact ⟨rfl, hmem⟩

/-- A call of the session leaves what its loop left, and the memory as it was (rules R32, R38). -/
theorem sessionAct_execute_next {cfg : Config} {k : Nat} {g h : Session} {r : HostReply}
    (ha : sessionAct cfg (.execute k) g = .next (h, r)) :
    h.memory = g.memory ∧ ∃ u, runCall cfg.opcodeMap (k + 1) (beginCall k g.memory g.core) = .next u ∧
      h.core = u.handBack := by
  obtain ⟨hop, hmem⟩ := (sessionAct_next cfg _ g h r).1 ha
  have hin := inCall_false_of_next hop
  obtain ⟨-, u, o, left, hrun, -, hcore, rfl⟩ :=
    executeCall_next ((performOp_execute cfg k g.memory g.core hin).symm.trans hop)
  exact ⟨hmem.trans (runCall_mem hrun), u, hrun, hcore⟩

/-- A write leaves the core, and the memory with its cell set where there is one (rule R34). -/
theorem sessionAct_memWrite_next {cfg : Config} {addr : Nat} {v : Byte} {g h : Session} {r : HostReply}
    (ha : sessionAct cfg (.memWrite addr v) g = .next (h, r)) :
    h.core = g.core ∧ h.memory = if addr < 65536 then g.memory.poke addr v else g.memory := by
  obtain ⟨hop, hmem⟩ := (sessionAct_next cfg _ g h r).1 ha
  have hin := inCall_false_of_next hop
  obtain ⟨core, memory⟩ := h
  cases (performOp_memWrite cfg g.memory g.core addr v hin).symm.trans hop
  refine ⟨rfl, hmem.trans ?_⟩
  by_cases hlt : addr < 65536
  · rw [if_neg (Nat.not_le.2 hlt), if_pos hlt]; rfl
  · rw [if_pos (Nat.le_of_not_lt hlt), if_neg hlt]; rfl

/-- A read leaves everything (rule R33). -/
theorem sessionAct_memRead_next {cfg : Config} {addr : Nat} {g h : Session} {r : HostReply}
    (ha : sessionAct cfg (.memRead addr) g = .next (h, r)) : h.core = g.core ∧ h.memory = g.memory := by
  obtain ⟨hop, hmem⟩ := (sessionAct_next cfg _ g h r).1 ha
  have hin := inCall_false_of_next hop
  obtain ⟨core, memory⟩ := h
  cases (performOp_memRead cfg g.memory g.core addr hin).symm.trans hop
  refine ⟨rfl, hmem.trans ?_⟩
  split <;> rfl

/-- An observation leaves everything (rule R63). -/
theorem sessionAct_observe_next {cfg : Config} {g h : Session} {r : HostReply}
    (ha : sessionAct cfg .observe g = .next (h, r)) : h.core = g.core ∧ h.memory = g.memory := by
  obtain ⟨hop, hmem⟩ := (sessionAct_next cfg _ g h r).1 ha
  have hin := inCall_false_of_next hop
  cases hl : g.core.lifecycle with
  | undefined => simp [HostAct.withMemory, performOp, hin, hostObserve, hl] at hop
  | defined =>
    obtain ⟨core, memory⟩ := h
    cases (performOp_observe cfg g.core hin hl).symm.trans hop
    exact ⟨rfl, hmem⟩

/-- Settles O56: of what each act leaves, the memory. -/
theorem onlyTheHostAndResetChangeMemory : Obligations.OnlyTheHostAndResetChangeMemory := by
  unfold Obligations.OnlyTheHostAndResetChangeMemory
  intro cfg g h a r ha
  refine ⟨?reset, ?write, ?others⟩
  case reset =>
    rintro rfl addr
    obtain ⟨-, hmem⟩ := sessionAct_reset_next ha
    rw [hmem, Memory.peek_nil]
  case write =>
    rintro addr v rfl
    obtain ⟨hcore, hmem⟩ := sessionAct_memWrite_next ha
    refine ⟨hcore, fun hwf other => ?_⟩
    by_cases hlt : addr < 65536
    · rw [hmem, if_pos hlt, Memory.peek_poke g.memory addr other v hwf]
      simp [hlt]
    · simp [hmem, hlt]
  case others =>
    rintro (⟨k, rfl⟩ | rfl | ⟨addr, rfl⟩)
    · exact (sessionAct_execute_next ha).1
    · exact (sessionAct_observe_next ha).2
    · exact (sessionAct_memRead_next ha).2

/-- Settles O32: PC is an address of memory, so the write sets its cell, and the fetch reads that cell. -/
theorem hostWriteIsFetched : Obligations.HostWriteIsFetched := by
  unfold Obligations.HostWriteIsFetched
  intro cfg g v k hin hwf
  have hwrite : performOp cfg (.memWrite g.memory g.core.pc.toNat v) g.core =
      .next (g.core, .done (g.memory.poke g.core.pc.toNat v)) := by
    rw [performOp_memWrite cfg _ _ _ _ hin, if_neg (Nat.not_le.2 g.core.pc.isLt)]
  have hact : sessionAct cfg (.memWrite g.core.pc.toNat v) g =
      .next ({ core := g.core, memory := g.memory.poke g.core.pc.toNat v }, .done (g.memory.poke g.core.pc.toNat v)) :=
    (sessionAct_next cfg _ g _ _).2 ⟨hwrite, rfl⟩
  refine ⟨_, _, (beginCall (k + 1) (g.memory.poke g.core.pc.toNat v) g.core).advance.spend, hact, rfl, ?_⟩
  rw [fetchNextByte_eq, if_neg (by simp), beginCall_mem, beginCall_pc, Memory.peek_poke _ _ _ _ hwf, if_pos rfl]

/-! The reset-reachable sessions -/

/-- What holds of a session from its first reset on. -/
def SessionInv (cfg : Config) (h : Session) : Prop :=
  Inv cfg h.core ∧ inCall h.core = false ∧ h.core.mem = [] ∧ h.memory.wf = true

/-- A call of a session that has the invariant leaves one that has it: every pass keeps the core's, on the memory lent,
and the memory goes back. -/
theorem sessionInv_execute {cfg : Config} {k : Nat} {g h : Session} {r : HostReply} (hg : SessionInv cfg g)
    (ha : sessionAct cfg (.execute k) g = .next (h, r)) : SessionInv cfg h := by
  obtain ⟨hinv, -, -, hwf⟩ := hg
  obtain ⟨hl, -, hsp, hflags⟩ := hinv
  obtain ⟨hmem, u, hrun, hcore⟩ := sessionAct_execute_next ha
  have hbegin : Inv cfg (beginCall k g.memory g.core) := ⟨hl, hwf, hsp, hflags⟩
  obtain ⟨hul, -, husp, huflags⟩ :=
    runCall_keeps (Inv cfg) cfg.opcodeMap (fun _ _ => loopPass_keeps (keptByUpdates_inv cfg)) _ _ u hbegin hrun
  rw [SessionInv, hcore, hmem]
  exact ⟨⟨hul, rfl, husp, huflags⟩, rfl, rfl, hwf⟩

/-- So does an act that leaves the core and a memory in canonical form. -/
theorem sessionInv_of_core_eq {cfg : Config} {g h : Session} (hg : SessionInv cfg g) (hcore : h.core = g.core)
    (hwf : h.memory.wf = true) : SessionInv cfg h := by
  obtain ⟨hinv, hin, hmem, -⟩ := hg
  rw [SessionInv, hcore]
  exact ⟨hinv, hin, hmem, hwf⟩

/-- A reset leaves a session that has the invariant, whatever it was before (rule R108). -/
theorem sessionInv_reset {cfg : Config} {g h : Session} {r : HostReply} (ha : sessionAct cfg .reset g = .next (h, r)) :
    SessionInv cfg h := by
  obtain ⟨hcore, hmem⟩ := sessionAct_reset_next ha
  rw [SessionInv, hcore, hmem]
  exact ⟨inv_resetWith cfg, inCall_resetWith cfg, rfl, rfl⟩

/-- Every act keeps the invariant of the session. -/
theorem sessionInv_act {cfg : Config} {a : HostAct} {g h : Session} {r : HostReply} (hg : SessionInv cfg g)
    (ha : sessionAct cfg a g = .next (h, r)) : SessionInv cfg h := by
  have ⟨_, _, _, hwf⟩ := hg
  cases a with
  | reset => exact sessionInv_reset ha
  | execute k => exact sessionInv_execute hg ha
  | observe =>
    obtain ⟨hcore, hmem⟩ := sessionAct_observe_next ha
    exact sessionInv_of_core_eq hg hcore (hmem ▸ hwf)
  | memWrite addr v =>
    obtain ⟨hcore, hmem⟩ := sessionAct_memWrite_next ha
    refine sessionInv_of_core_eq hg hcore ?_
    rw [hmem]
    split
    · exact Memory.wf_poke g.memory addr v (by assumption) hwf
    · exact hwf
  | memRead addr =>
    obtain ⟨hcore, hmem⟩ := sessionAct_memRead_next ha
    exact sessionInv_of_core_eq hg hcore (hmem ▸ hwf)

/-- Settles O38: by induction over the acts: the first reset gives the session's invariant, and every act keeps it. -/
theorem reachableStatesHaveTheInvariant : Obligations.ReachableStatesHaveTheInvariant := by
  unfold Obligations.ReachableStatesHaveTheInvariant
  intro cfg h hr
  change SessionInv cfg h
  induction hr with
  | reset g h r ha => exact sessionInv_reset ha
  | act g h a r _ ha ih => exact sessionInv_act ih ha

end Sys2Proof.Machine
end
